-- ==== Sys2Proof/Word.lean ====
section
/-! DEFINITION. The fixed-width words of the block: spec/00_scope.md R10 (bit 0 is the least
significant bit, everything unsigned) and the widths of spec/10_state.md and spec/30_encoding.md. -/

namespace Sys2Proof

/-- One 40-bit command word, `CMD[39:0]` (30_encoding R81). -/
abbrev CmdWord := BitVec 40

/-- One byte: a flag cell, an 8-bit register, an 8-bit operand. -/
abbrev Byte := BitVec 8

/-- A 16-bit overflow counter: `OVF_NEEDED`, `ISR_CNT`, `POLL_CNT` (10_state R26 to R28). -/
abbrev Count := BitVec 16

/-- A 2-bit flag reference code: 0 null, 1 cell 0, 2 cell 1, 3 reserved (10_state R29). -/
abbrev FlagRef := BitVec 2

/-- The 32-bit millisecond operand of `DELAY` (30_encoding R82, format M). -/
abbrev Millis := BitVec 32

/-- The six motor pins, `M0_ENA` at bit 0 up to `M1_PWM` at bit 5 (10_state R34). -/
abbrev Pins := BitVec 6

end Sys2Proof
end

