-- ==== Sys2Proof/Syntax.lean ====
section
/-! DEFINITION. The nine commands of spec/30_encoding.md R84, one constructor per row of
spec/opcode_table.json, with the operands of R82 and R83. -/

namespace Sys2Proof

/-- The operand of `CHDIR`: motor 0 is the right motor, motor 1 the left (30_encoding R83,
10_state R34). -/
inductive MotorSide where
  /-- `SIDE` = 0, motor 0. -/
  | right
  /-- `SIDE` = 1, motor 1. -/
  | left
deriving DecidableEq, Repr

/-- One command of the command port. -/
inductive Instr where
  /-- `CFGNM sel, ref`: configureNormalMode (40_timer_delay R110). -/
  | cfgnm (sel : Byte) (ref : FlagRef)
  /-- `DELAY ms`: delay (R111). -/
  | delay (ms : Millis)
  /-- `SETCB id`: setOverflowCallback (41_overflow_callback R130). -/
  | setcb (val : Byte)
  /-- `MINIT ref`: motorInit (42_motor_control R140). -/
  | minit (ref : FlagRef)
  /-- `CHDIR side`: changeDirection (R141). -/
  | chdir (side : MotorSide)
  /-- `SETDC pct`: setDutyCycle (R142). -/
  | setdc (val : Byte)
  /-- `ROT`: rotateDCM (R149). -/
  | rot
  /-- `STOP`: stopDCM (R151). -/
  | stop
  /-- `UPDSF`: updateStopFlag (R152). -/
  | updsf
deriving DecidableEq, Repr

end Sys2Proof
end

