-- ==== Sys2Proof/WellFormed.lean ====
section
/-! DEFINITION. Which terms of Instr some command word stands for: spec/30_encoding.md R87 reserves
`REF` = 3 in formats C and R; R88 says that every other operand value decodes. -/

namespace Sys2Proof

/-- A reference code that a command may carry (R83, R87). -/
abbrev legalRef (ref : FlagRef) : Prop := ref ≠ 3#2

/-- The operand checks of the encoding, one per command. -/
def Instr.wellFormed : Instr → Bool
  | .cfgnm _ ref => decide (legalRef ref)
  | .delay _ => true
  | .setcb _ => true
  | .minit ref => decide (legalRef ref)
  | .chdir _ => true
  | .setdc _ => true
  | .rot => true
  | .stop => true
  | .updsf => true

end Sys2Proof
end

