-- ==== Sys2Proof/Decode.lean ====
section
/-! DEFINITION. The decoder (spec/30_encoding.md R85) and the encoder (R81 to R84) of the 40-bit
command word. -/

namespace Sys2Proof

/-- Why a word is `Reserved` (R85, R87). -/
inductive Reserved where
  /-- The opcode is 0x00 or above 0x09. -/
  | opcode
  /-- A reserved bit of the command's format is 1. -/
  | reservedBits
  /-- `REF` = 3 in format C or R. -/
  | reference
deriving DecidableEq, Repr

/-- `OP = CMD[39:32]` (R81). -/
def opcodeOf (w : CmdWord) : Byte := w.extractLsb' 32 8

/-- `SEL = CMD[7:0]` of format C, `VAL = CMD[7:0]` of format B (R82). -/
def lowByteOf (w : CmdWord) : Byte := w.extractLsb' 0 8

/-- `REF = CMD[9:8]` of format C (R82). -/
def refOfC (w : CmdWord) : FlagRef := w.extractLsb' 8 2

/-- `REF = CMD[1:0]` of format R (R82). -/
def refOfR (w : CmdWord) : FlagRef := w.extractLsb' 0 2

/-- `MS = CMD[31:0]` of format M (R82). -/
def msOf (w : CmdWord) : Millis := w.extractLsb' 0 32

/-- `SIDE = CMD[0]` of format S: 0 right, 1 left (R82, R83). -/
def sideOf (w : CmdWord) : MotorSide := if w.extractLsb' 0 1 = 1#1 then .left else .right

/-- The word passes a row's mask and match (R84); otherwise a reserved bit is 1 (R85). -/
def selected (w mask bits : CmdWord) (i : Instr) : Except Reserved Instr :=
  if w &&& mask = bits then .ok i else .error .reservedBits

/-- A command with the reference code 3 is a reserved encoding (R85, R87). -/
def refChecked (ref : FlagRef) (d : Except Reserved Instr) : Except Reserved Instr :=
  match d with
  | .error r => .error r
  | .ok i => if ref = 3#2 then .error .reference else .ok i

/-- Decoding (R85): every 40-bit word is one command or `Reserved`. -/
def decode (w : CmdWord) : Except Reserved Instr :=
  match (opcodeOf w).toNat with
  | 1 => refChecked (refOfC w) (selected w 0xFFFFFFFC00#40 0x0100000000#40 (.cfgnm (lowByteOf w) (refOfC w)))
  | 2 => selected w 0xFF00000000#40 0x0200000000#40 (.delay (msOf w))
  | 3 => selected w 0xFFFFFFFF00#40 0x0300000000#40 (.setcb (lowByteOf w))
  | 4 => refChecked (refOfR w) (selected w 0xFFFFFFFFFC#40 0x0400000000#40 (.minit (refOfR w)))
  | 5 => selected w 0xFFFFFFFFFE#40 0x0500000000#40 (.chdir (sideOf w))
  | 6 => selected w 0xFFFFFFFF00#40 0x0600000000#40 (.setdc (lowByteOf w))
  | 7 => selected w 0xFFFFFFFFFF#40 0x0700000000#40 .rot
  | 8 => selected w 0xFFFFFFFFFF#40 0x0800000000#40 .stop
  | 9 => selected w 0xFFFFFFFFFF#40 0x0900000000#40 .updsf
  | _ => .error .opcode

/-- The `SIDE` bit of a motor side (R83). -/
def sideBit : MotorSide → BitVec 1
  | .right => 0#1
  | .left => 1#1

/-- An operand field with its bit 0 at bit `lo` of the word (R82); the other bits are 0. -/
def placed {n : Nat} (v : BitVec n) (lo : Nat) : CmdWord := v.setWidth 40 <<< lo

/-- The word of a command (R81 to R84): the row's match word and the format's fields; every reserved
bit is 0. -/
def encode : Instr → CmdWord
  | .cfgnm sel ref => 0x0100000000#40 ||| placed ref 8 ||| placed sel 0
  | .delay ms => 0x0200000000#40 ||| placed ms 0
  | .setcb val => 0x0300000000#40 ||| placed val 0
  | .minit ref => 0x0400000000#40 ||| placed ref 0
  | .chdir side => 0x0500000000#40 ||| placed (sideBit side) 0
  | .setdc val => 0x0600000000#40 ||| placed val 0
  | .rot => 0x0700000000#40
  | .stop => 0x0800000000#40
  | .updsf => 0x0900000000#40

/-- The command word whose `nbits` lowest bits are those of `w`: bit 0 of the table's numbering is
bit 0 of the word, which is one 40-bit parallel value with no byte order (20_memory R66). -/
def tableWord (nbits w : Nat) : CmdWord := BitVec.ofNat 40 (w % 2 ^ nbits)

/-- The command the decoder reads from the bits `w` of an opcode-table row. -/
def decodeTableWord (nbits w : Nat) : Option Instr :=
  match decode (tableWord nbits w) with
  | .ok i => some i
  | .error _ => none

end Sys2Proof
end

