-- ==== Sys2Proof/Config.lean ====
section
/-! DEFINITION. What is fixed for the machine: the constants of spec/00_scope.md R6, the parameters
of R7 and R8 with their reference values, and the wiring of the flags (43_sudden_stop R171). -/

namespace Sys2Proof.Config

/-- `COUNTER_MOD` (R6): ticks in one overflow period. -/
def counterMod : Nat := 256

/-- `MAX_OVF` (R6): the largest overflow count of one delay. -/
def maxOvf : Nat := 65535

/-- `MAX_DUTY_CYCLE` (R6). -/
def maxDutyCycle : Nat := 100

/-- `PERIOD_TIME` (R6): PWM ticks in one PWM period. -/
def periodTime : Nat := 10

/-- `ROTATION_DUTY_CYCLE` (R6): the percent operand of the loop inside `ROT`. -/
def rotationDutyCycle : Byte := 50#8

/-- `N_FLAG_CELLS` (R6): cells of the flag space. -/
def nFlagCells : Nat := 2

/-- `DELAY_PRESCALER` (R6), as the `CS` code of /1024 (10_state R21). -/
def delayPrescalerCode : BitVec 3 := 5#3

/-- The prescaler settings in the order of 10_state R21, which numbers them 0 to 5. -/
inductive Prescaler where
  | stopped | div1 | div8 | div64 | div256 | div1024
deriving DecidableEq, Repr

/-- The `CS` code of a prescaler setting (10_state R21). -/
def Prescaler.code : Prescaler → BitVec 3
  | .stopped => 0#3
  | .div1 => 1#3
  | .div8 => 2#3
  | .div64 => 3#3
  | .div256 => 4#3
  | .div1024 => 5#3

/-- The parameters that the step relation reads (10_state R39, 00_scope R7 and R8). -/
structure Params where
  /-- `TICK_NS`: nanoseconds of one timer count at /1024 (R7). -/
  tickNs : Nat
  /-- `PWM_TICK_MS`: milliseconds of one PWM tick (R8). -/
  pwmTickMs : Nat
deriving DecidableEq, Repr

/-- The reference configuration: `TICK_NS` = 128000 (R7), `PWM_TICK_MS` = 1 (R8). -/
def Params.reference : Params := { tickNs := 128000, pwmTickMs := 1 }

/-- `TICK_NS` is a positive natural number (R7). -/
abbrev Params.legal (p : Params) : Prop := 0 < p.tickNs

/-- Which physical timer the block's timer is (R8): a label that changes no behaviour. -/
inductive TimerId where
  | timer0 | timer2
deriving DecidableEq, Repr, Inhabited

/-- `TIMER_ID` (R8): the implementation chooses it and no rule reads it, so it has no body. -/
opaque timerId : TimerId

/-- `WIRING` (43_sudden_stop R171): which cell each external edge writes, and which reference the
application gives to `CFGNM` and to `MINIT`. -/
structure Wiring where
  /-- The cell that the stop edge sets Up. -/
  stopCell : Fin 2
  /-- The cell that the start edge sets Down. -/
  startCell : Fin 2
  /-- The reference given to `CFGNM`. -/
  timerRef : FlagRef
  /-- The reference given to `MINIT`. -/
  motorRef : FlagRef
deriving DecidableEq, Repr

/-- The reference wiring: everything on cell 0 (R69, R171). -/
def Wiring.reference : Wiring :=
  { stopCell := 0, startCell := 0, timerRef := 1#2, motorRef := 1#2 }

end Sys2Proof.Config
end

