-- ==== Sys2Proof/Machine/State.lean ====
section
/-! DEFINITION. The state of the block as plain data: every register of spec/10_state.md, the flag
space of spec/20_memory.md, and the model's own inputs (marked so). -/

namespace Sys2Proof.Machine

/-- Why the MODEL stops. The block's own fault (`FAULT` = 1, 00_scope R13) is a next state. -/
inductive Fault where
  /-- A flag read through the reference code 3 would read cell 2, which does not exist
  (20_memory R60, R62). Raised by `withFlag`; only in states that no run reaches, since no command
  stores 3 (10_state R29). Safe. -/
  | noSuchCell (cell : Nat)
deriving DecidableEq, Repr

/-- Why the MODEL gives a command no meaning. -/
inductive Refusal where
  /-- A command without a meaning; no arm of `exec` answers it. Safe. -/
  | notModelled (mnemonic : String)
deriving DecidableEq, Repr

/-- The phase of a duty-cycle loop (10_state R35): `S_TEST`, `S_ON`, `S_LOW`, `S_OFF`. -/
inductive Phase where
  | test | on | low | off
deriving DecidableEq, Repr

/-- One entry of the sequencer stack (10_state R35). -/
inductive Frame where
  /-- `DPOLL(cnt)`: a delay waiting for overflows; `cnt` is `POLL_CNT` (R28). -/
  | dpoll (cnt : Count)
  /-- `SETDC(pct, ph)`: a duty-cycle loop. -/
  | setdc (pct : Byte) (ph : Phase)
  /-- `ROTFIN`: a rotate waiting for its inner loop. -/
  | rotfin
deriving DecidableEq, Repr

/-- The numbered registers of the block (10_state R20 to R34). -/
inductive Reg where
  | tCtrl | tCnt | tIen | tFlg | ovfNeeded | isrCnt | tref | mref | cb | mstop | result | fault
  | pinDir | pinOut
deriving DecidableEq, Repr

/-- The events of the log `EVT` (10_state R37). -/
inductive Event where
  /-- `Issue(word)`: a command is accepted. -/
  | issue (word : CmdWord)
  /-- `RegWrite(n, v)`: a rule writes `v` to a timer register (registers 0 to 3 only). -/
  | regWrite (reg : Reg) (v : Byte)
  /-- `PinWrite(dir, out)`: the new values of `PIN_DIR` and `PIN_OUT`. -/
  | pinWrite (dir out : Pins)
  /-- `Isr(cnt)`: the interrupt service runs, with the incremented count. -/
  | isr (cnt : Count)
  /-- `CbInvoke(id)`: the interrupt service invokes a subscriber. -/
  | cbInvoke (id : Byte)
  /-- `Result(code)`: a command completes. -/
  | result (code : Byte)
deriving DecidableEq, Repr

/-- The moves of the step relation (10_state R41) and the reset input (70_reset_and_hazards R210). -/
inductive Move where
  /-- The host presents its next word on the command port (30_encoding R80): `Accept` where it is
  enabled; otherwise the word is lost. -/
  | present
  /-- `SeqStep`. -/
  | seqStep
  /-- `Tick`. -/
  | tick
  /-- `Isr`. -/
  | isr
  /-- `EnvWrite(cell, v)` (43_sudden_stop R170): 0 is Down, 1 is Up. -/
  | envWrite (cell : Fin 2) (v : BitVec 1)
  /-- The reset input is asserted (R210). -/
  | reset
deriving DecidableEq, Repr

/-- The flag space (20_memory R60): the listed cells, addresses strictly rising, none equal to what
an unlisted cell reads as. -/
abbrev Memory := List Host.Cell

/-- The whole state. -/
structure State where
  /-- `T_CTRL`, register 0 (10_state R20): `CS` = [2:0], `MODE` = [3]. -/
  tCtrl : Byte
  /-- `T_CNT`, register 1 (R22). -/
  tCnt : Byte
  /-- `T_IEN`, register 2 (R23): `TOIE` = [0]. -/
  tIen : Byte
  /-- `T_FLG`, register 3 (R24): `TOV` = [0]. -/
  tFlg : Byte
  /-- `OVF_PEND`, no number (R25): the pending latch of the overflow interrupt. -/
  ovfPend : BitVec 1
  /-- `OVF_NEEDED`, register 4 (R26). -/
  ovfNeeded : Count
  /-- `ISR_CNT`, register 5 (R27). -/
  isrCnt : Count
  /-- `TREF`, register 6 (R29). -/
  tref : FlagRef
  /-- `MREF`, register 7 (R29). -/
  mref : FlagRef
  /-- `CB`, register 8 (R30): 0 none, 1 `updateStopFlag`, 2 to 255 external. -/
  cb : Byte
  /-- `MSTOP`, register 9 (R31). -/
  mstop : BitVec 1
  /-- `RESULT`, register 10 (R32). -/
  result : Byte
  /-- `FAULT`, register 11 (R33): 0 none, 1 `NullFlagRef`. -/
  fault : Byte
  /-- `PIN_DIR`, register 12 (R34). -/
  pinDir : Pins
  /-- `PIN_OUT`, register 13 (R34). -/
  pinOut : Pins
  /-- `SEQ`, the frame stack, top first (R35): the block's program counter (00_scope R12). -/
  seq : List Frame
  /-- `EVT`, the event log, oldest first (R37): ghost state. -/
  evt : List Event
  /-- `CB_OUT` with `CB_STROBE` (R40): the number pulsed by the last step, if it pulsed one
  (log 4). -/
  cbOut : Option Byte
  /-- The flag cells (R38, 20_memory R60). -/
  mem : Memory
  /-- MODEL: the parameters of the step relation (R39, log 2); no rule writes them. -/
  params : Config.Params
  /-- MODEL: the command words the host has still to present, next first (30_encoding R90, log 1). -/
  cmds : List CmdWord
  /-- MODEL: the moves that come next, in order; when it is empty the eager schedule chooses
  (10_state R41, log 1). -/
  agenda : List Move
deriving DecidableEq, Repr

/-- The machine right after reset (10_state R42). Not from R42: no pulse on `CB_OUT` (log 4), the
flag cells Down (R211, log 3), the reference parameters (log 2), no command and no move waiting
(log 1). -/
def State.reset : State :=
  { tCtrl := 0x00#8, tCnt := 0x00#8, tIen := 0x00#8, tFlg := 0x00#8
    ovfPend := 0#1, ovfNeeded := 0#16, isrCnt := 0#16
    tref := 0#2, mref := 0#2, cb := 0#8, mstop := 0#1
    result := 0x00#8, fault := 0x00#8
    pinDir := 0b000000#6, pinOut := 0b000000#6
    seq := [], evt := [], cbOut := none
    mem := [], params := Config.Params.reference, cmds := [], agenda := [] }

end Sys2Proof.Machine
end

