-- ==== Sys2Proof/Machine/Flags.lean ====
section
/-! DEFINITION. The fields of the status and control registers (spec/10_state.md R20 to R24) and the
pin masks (R34): reading one field, and writing one while the others keep their value. -/

namespace Sys2Proof.Machine

/-- `CS` = `T_CTRL[2:0]`, the prescaler select (R20). -/
def csOf (v : Byte) : BitVec 3 := v.extractLsb' 0 3

/-- `MODE` = `T_CTRL[3]` (R20). -/
def modeOf (v : Byte) : BitVec 1 := v.extractLsb' 3 1

/-- `x[T_CTRL].CS <- cs`. -/
def setCs (v : Byte) (cs : BitVec 3) : Byte := v.extractLsb' 3 5 ++ cs

/-- `x[T_CTRL].MODE <- mode`. -/
def setMode (v : Byte) (mode : BitVec 1) : Byte := v.extractLsb' 4 4 ++ mode ++ v.extractLsb' 0 3

/-- Bit 0 of a register: `TOIE` of `T_IEN` (R23), `TOV` of `T_FLG` (R24). -/
def bit0Of (v : Byte) : BitVec 1 := v.extractLsb' 0 1

/-- Writing bit 0 of a register. -/
def setBit0 (v : Byte) (b : BitVec 1) : Byte := v.extractLsb' 1 7 ++ b

/-- `TOIE` (R23): 1 = the overflow interrupt is armed. -/
def toieOf (ien : Byte) : BitVec 1 := bit0Of ien

/-- `x[T_IEN].TOIE <- b`. -/
def setToie (ien : Byte) (b : BitVec 1) : Byte := setBit0 ien b

/-- `TOV` (R24): the overflow flag. -/
def tovOf (flg : Byte) : BitVec 1 := bit0Of flg

/-- `x[T_FLG].TOV <- b`. -/
def setTov (flg : Byte) (b : BitVec 1) : Byte := setBit0 flg b

/-- The timer counts exactly when `CS` is not 0 (R21). -/
abbrev State.timerRunning (s : State) : Prop := csOf s.tCtrl ≠ 0#3

/-- `PWM_MASK` (R34): the PWM pins of both motors. -/
def pwmMask : Pins := 0b100100#6

/-- `FWD_PATTERN` (R34): `ENA` high, `ENB` low on both motors. -/
def fwdPattern : Pins := 0b001001#6

/-- `EN_MASK(side)` (R34): the enable pair of one motor. -/
def enMask : MotorSide → Pins
  | .right => 0b000011#6
  | .left => 0b011000#6

end Sys2Proof.Machine
end

