-- ==== Sys2Proof/Machine/Memory.lean ====
section
/-! DEFINITION. The flag space (spec/20_memory.md R60 to R63): two one-byte cells held as a list in
one canonical form. -/

namespace Sys2Proof.Machine

/-- What a cell that the list does not name reads as: Down, the source's normal start
(70_reset_and_hazards R211; DESIGN CHOICE, log 3). -/
def unlistedByte : Byte := 0#8

/-- The byte that the list gives an address. -/
def Memory.lookup : Memory → Nat → Byte
  | [], _ => unlistedByte
  | (a, b) :: rest, k => if a = k then b else Memory.lookup rest k

/-- `MemRead(k, 1)` (R62); none where no cell has that index (R60). -/
def Memory.read (m : Memory) (k : Nat) : Option Byte :=
  if k < Config.nFlagCells then some (Memory.lookup m k) else none

/-- A list entry, left out where it equals what an unlisted cell reads as. -/
def Memory.entry (k : Nat) (v : Byte) (rest : Memory) : Memory :=
  if v = unlistedByte then rest else (k, v) :: rest

/-- `MemWrite(k, 1, v)` (R63), keeping the canonical form. -/
def Memory.write : Memory → Nat → Byte → Memory
  | [], k, v => Memory.entry k v []
  | (a, b) :: rest, k, v =>
    if k < a then Memory.entry k v ((a, b) :: rest)
    else if k = a then Memory.entry k v rest
    else (a, b) :: Memory.write rest k v

/-- The canonical form from an address upward: addresses strictly rising and below the size of the
flag space, no entry equal to what an unlisted cell reads as. -/
def Memory.wfFrom : Nat → Memory → Bool
  | _, [] => true
  | lo, (a, b) :: rest =>
    decide (lo ≤ a) && decide (a < Config.nFlagCells) && decide (b ≠ unlistedByte)
      && Memory.wfFrom (a + 1) rest

/-- The canonical form of the flag space. -/
def Memory.wf (m : Memory) : Bool := Memory.wfFrom 0 m

/-- Every cell holds Down or Up: writers store only 0 or 1 (20_memory R61, R63). -/
def Memory.binary (m : Memory) : Bool := m.all fun c => decide (c.2 = 0#8 ∨ c.2 = 1#8)

end Sys2Proof.Machine
end

