-- ==== Sys2Proof/Machine/Operands.lean ====
section
/-! DEFINITION. What the operand values of a command mean (spec/30_encoding.md R83, R88): the
selector of `CFGNM`, the subscriber of `SETCB`, the percent of `SETDC`, the result codes of R180. -/

namespace Sys2Proof.Machine

/-- The result codes (60_exceptions R180). -/
inductive ResultCode where
  | ok | invalidArgument | rangeExceeded | aborted | hardwareConfigError
deriving DecidableEq, Repr

/-- The number a result code leaves in `RESULT` (R180). -/
def ResultCode.value : ResultCode → Byte
  | .ok => 0#8
  | .invalidArgument => 1#8
  | .rangeExceeded => 2#8
  | .aborted => 3#8
  | .hardwareConfigError => 4#8

/-- The faults of the block (10_state R33). -/
inductive FaultReason where
  | nullFlagRef
deriving DecidableEq, Repr

/-- The number a fault leaves in `FAULT` (R33). -/
def FaultReason.value : FaultReason → Byte
  | .nullFlagRef => 1#8

/-- A valid interrupt-enable selector: 0 disarms, 1 arms (30_encoding R83). -/
abbrev validSelector (sel : Byte) : Prop := sel ≤ 1#8

/-- The `TOIE` bit that a valid selector stands for. -/
def selectorBit (sel : Byte) : BitVec 1 := sel.extractLsb' 0 1

/-- A subscriber number that is not null (30_encoding R83). -/
abbrev validSubscriber (val : Byte) : Prop := val ≠ 0#8

/-- A percent operand in the range of `SETDC` (42_motor_control R143). -/
abbrev validPercent (pct : Byte) : Prop := pct.toNat ≤ Config.maxDutyCycle

/-- `on(pct) = pct div 10` (42_motor_control R148), in PWM ticks. -/
def onTicks (pct : Byte) : Nat := pct.toNat / 10

/-- `off(pct) = 10 - on(pct)` (R148), in PWM ticks. -/
def offTicks (pct : Byte) : Nat := Config.periodTime - onTicks pct

end Sys2Proof.Machine
end

