-- ==== Sys2Proof/Machine/Ops.lean ====
section
/-! DEFINITION. The operations that the rules share (spec/00_scope.md R11 to R15): emitting an event,
writing a timer register or the pins, completing a command, returning to a caller, raising the
fault, and reading a flag through a reference. -/

namespace Sys2Proof.Machine

/-- What a rule answers. -/
abbrev Answer := Host.Outcome State Fault Refusal

/-- `emit(e)` (R14). -/
def State.emit (s : State) (e : Event) : State := { s with evt := s.evt ++ [e] }

/-- `x[T_CTRL] <- v; emit(RegWrite(0, v))`. -/
def State.writeTCtrl (s : State) (v : Byte) : State := { s with tCtrl := v }.emit (.regWrite .tCtrl v)

/-- `x[T_CNT] <- v; emit(RegWrite(1, v))`. -/
def State.writeTCnt (s : State) (v : Byte) : State := { s with tCnt := v }.emit (.regWrite .tCnt v)

/-- `x[T_CTRL].CS <- 0; emit(RegWrite(0, x[T_CTRL]))`: stop the timer (40_timer_delay R113,
60_exceptions R186). -/
def State.stopTimer (s : State) : State := s.writeTCtrl (setCs s.tCtrl 0#3)

/-- `x[PIN_OUT] <- v; emit(PinWrite(x[PIN_DIR], x[PIN_OUT]))`. -/
def State.writePinOut (s : State) (v : Pins) : State :=
  { s with pinOut := v }.emit (.pinWrite s.pinDir v)

/-- `push f` (00_scope R12). -/
def State.push (s : State) (f : Frame) : State := { s with seq := f :: s.seq }

/-- `x[RESULT] <- code; emit(Result(code))`: a command completes (10_state R32, R37). -/
def State.complete (s : State) (code : ResultCode) : State :=
  { s with result := code.value }.emit (.result code.value)

/-- `return-to-caller(code)` (40_timer_delay R112): the host's command completes with the code;
a waiting frame drops the code and takes its next step (42_motor_control R154). -/
def State.returnToCaller (s : State) (code : ResultCode) : State :=
  match s.seq with
  | [] => s.complete code
  | _ :: _ => s

/-- `ret(code)` (00_scope R12): remove the top frame and return to its caller. -/
def State.ret (s : State) (code : ResultCode) : State :=
  { s with seq := s.seq.tail }.returnToCaller code

/-- `raise Fault(reason)` (00_scope R13, 60_exceptions R182), taken from the state in which the step
found the machine: `FAULT` records the reason and the step has no other effect. The block's one
exception: nothing is saved, and only reset leaves it. -/
def raiseFault (reason : FaultReason) (found : State) : Answer :=
  .next { found with fault := reason.value }

/-- What `FlagRead(ref)` finds. -/
inductive FlagValue where
  /-- The reference is null: the fault `NullFlagRef` (20_memory R64). -/
  | null
  /-- The reference names a cell that does not exist (code 3 only). -/
  | noCell (cell : Nat)
  /-- The byte of the cell. -/
  | value (b : Byte)
deriving DecidableEq, Repr

/-- `FlagRead(ref)` (20_memory R64): indirect through a stored reference, effective index
`ref - 1`. -/
def flagRead (ref : FlagRef) (m : Memory) : FlagValue :=
  if ref = 0#2 then .null
  else match m.read (ref.toNat - 1) with
    | none => .noCell (ref.toNat - 1)
    | some b => .value b

/-- `f <- FlagRead(ref)` in a rule that found the machine in `found` and goes on as `k f`. -/
def withFlag (ref : FlagRef) (found : State) (k : Byte → Answer) : Answer :=
  match flagRead ref found.mem with
  | .null => raiseFault .nullFlagRef found
  | .noCell c => .fault (.noSuchCell c)
  | .value b => k b

end Sys2Proof.Machine
end

