-- ==== Sys2Proof/Machine/Callback.lean ====
section
/-! DEFINITION. The Overflow Interrupt Callback Registry (spec/41_overflow_callback.md): `SETCB` and
the invocation of the stored subscriber. -/

namespace Sys2Proof.Machine

/-- `SETCB id` (R130). -/
def execSetcb (val : Byte) (s : State) : Answer :=
  if validSubscriber val then .next ({ s with cb := val }.complete .ok)
  else .next (s.complete .invalidArgument)

/-- `updateStopFlag` as a register write: `x[MSTOP] <- 1` (42_motor_control R152). -/
def State.updateStopFlag (s : State) : State := { s with mstop := 1#1 }

/-- `invoke_callback()` (R131): no subscriber is a no-op, subscriber 1 is `updateStopFlag`, any other
is pulsed on `CB_OUT` and does nothing to the block (log 11). -/
def invokeCallback (s : State) : State :=
  if s.cb = 0#8 then s
  else if s.cb = 1#8 then s.updateStopFlag.emit (.cbInvoke 1#8)
  else { s with cbOut := some s.cb }.emit (.cbInvoke s.cb)

end Sys2Proof.Machine
end

