-- ==== Sys2Proof/Machine/Plan.lean ====
section
/-! DEFINITION. The plan arithmetic of spec/40_timer_delay.md R100 to R107: exact natural-number
arithmetic, parametric in `TICK_NS`. -/

namespace Sys2Proof.Machine

/-- `cdiv(a, b)`: the ceiling of `a / b` (00_scope R14). -/
def cdiv (a b : Nat) : Nat := (a + b - 1) / b

/-- `rhu(a, b)`: `a / b` rounded to the nearest natural, ties up (00_scope R14). -/
def rhu (a b : Nat) : Nat := (2 * a + b) / (2 * b)

/-- The pair of R100: `needed` = neededOverflowCount, `preload` = initialCounterPreload. -/
structure Plan where
  needed : Nat
  preload : Nat
deriving DecidableEq, Repr

/-- `e = m * 1000000`: the requested time in nanoseconds (R100). -/
def elapsedNs (m : Nat) : Nat := 1000000 * m

/-- `P = 256 * TICK_NS`: one overflow period in nanoseconds (00_scope R7). -/
def periodNs (tickNs : Nat) : Nat := Config.counterMod * tickNs

/-- The clamp (R105). -/
def clampPreload (raw : Nat) : Nat := min raw 255

/-- The overflow count and the raw preload of a time in range: the short case (R102), the exact
case (R103), the long case (R104). -/
def rawPlan (tickNs e : Nat) : Nat × Nat :=
  if e < periodNs tickNs then (1, cdiv (periodNs tickNs - e) tickNs)
  else if e = periodNs tickNs then (1, 0)
  else
    let n := cdiv e (periodNs tickNs)
    (n, 256 - rhu (e - periodNs tickNs * (n - 1)) tickNs)

/-- `plan(m)` (R106): none when `m` is out of range (R101). -/
def plan (tickNs m : Nat) : Option Plan :=
  if Config.maxOvf * periodNs tickNs < elapsedNs m then none
  else
    let r := rawPlan tickNs (elapsedNs m)
    some { needed := r.1, preload := clampPreload r.2 }

/-- `TOTAL(m)` of a plan (R107): ticks from the start of the timer to the last overflow. -/
def Plan.totalTicks (p : Plan) : Nat := 256 * (p.needed - 1) + (256 - p.preload)

end Sys2Proof.Machine
end

