-- ==== Sys2Proof/Machine/Timer.lean ====
section
/-! DEFINITION. The Timer Delay Engine (spec/40_timer_delay.md): `CFGNM`, `DELAY`, the entry of a
delay, the poll step, the timer's own step. -/

namespace Sys2Proof.Machine

/-- The effects of `CFGNM` with a valid selector (R110), in its order. -/
def State.configure (s : State) (sel : Byte) (ref : FlagRef) : State :=
  let ctrl := setMode s.tCtrl 0#1
  let s1 := { s with tCtrl := ctrl }.emit (.regWrite .tCtrl ctrl)
  let s2 := { s1 with tIen := setToie s1.tIen (selectorBit sel) }.emit (.regWrite .tIen sel)
  { s2 with tref := ref }

/-- `CFGNM sel, ref` (R110). The reference code 3 has no command word (30_encoding R87): such a term
is answered as its word is, `InvalidArgument` (R86; log 10). -/
def execCfgnm (sel : Byte) (ref : FlagRef) (s : State) : Answer :=
  if ¬ validSelector sel ∨ ¬ legalRef ref then .next (s.complete .invalidArgument)
  else .next ((s.configure sel ref).complete .ok)

/-- The effects of a delay that passed its checks (R112): the neutral state, the plan, the preload,
the start at /1024, the frame `DPOLL(0)`. -/
def State.startDelay (s : State) (p : Plan) : State :=
  let s1 := s.writeTCtrl 0x00#8
  let s2 := { s1 with ovfNeeded := BitVec.ofNat 16 p.needed }
  let s3 := s2.writeTCnt (BitVec.ofNat 8 p.preload)
  let s4 := s3.writeTCtrl (setCs s3.tCtrl Config.delayPrescalerCode)
  s4.push (.dpoll 0#16)

/-- `call_delay(m)` (R112) in the state `s` that the step has reached; `found` is the state in which
the step found the machine, to which a fault returns (00_scope R13). The range check comes first,
then the flag read, then the flag test (60_exceptions R183). -/
def callDelay (m : Nat) (found s : State) : Answer :=
  match plan s.params.tickNs m with
  | none => .next (s.returnToCaller .rangeExceeded)
  | some p =>
    withFlag s.tref found fun f =>
      if f ≠ 0#8 then .next (s.returnToCaller .aborted)
      else .next (s.startDelay p)

/-- `DELAY ms` (R111): the accept step is `call_delay(MS)` with the host as caller. -/
def execDelay (ms : Millis) (s : State) : Answer := callDelay ms.toNat s s

/-- The poll step (R113), the sequencer's step when the top frame is `DPOLL(cnt)` over `rest`. -/
def pollStep (cnt : Count) (rest : List Frame) (s : State) : Answer :=
  withFlag s.tref s fun f =>
    let c := cnt + 1#16
    let s1 := { s with tFlg := setTov s.tFlg 0#1 }.emit (.regWrite .tFlg 0x00#8)
    if s.ovfNeeded ≤ c ∨ f ≠ 0#8 then .next (s1.stopTimer.ret .ok)
    else .next { s1 with seq := .dpoll c :: rest }

/-- The overflow (R117): `TOV` is set, and `OVF_PEND` if the interrupt is armed (10_state R25). -/
def State.overflow (s : State) : State :=
  let s1 := { s with tFlg := setTov s.tFlg 1#1 }
  if toieOf s1.tIen = 1#1 then { s1 with ovfPend := 1#1 } else s1

/-- `Tick` (R117): one prescaled count. -/
def tick (s : State) : State :=
  let s1 := { s with tCnt := s.tCnt + 1#8 }
  if s.tCnt = 255#8 then s1.overflow else s1

end Sys2Proof.Machine
end

