-- ==== Sys2Proof/Machine/Motor.lean ====
section
/-! DEFINITION. The Motor Control Layer (spec/42_motor_control.md): `MINIT`, `CHDIR`, `SETDC`, `ROT`,
`STOP`, `UPDSF`, the phases of the duty-cycle loop and the end of a rotate. -/

namespace Sys2Proof.Machine

/-- `MINIT ref` (R140). The reference code 3 has no command word (30_encoding R87): such a term is
answered as its word is, `InvalidArgument` (R86; log 10). -/
def execMinit (ref : FlagRef) (s : State) : Answer :=
  if ¬ legalRef ref then .next (s.complete .invalidArgument)
  else
    let s1 := { s with pinDir := 0b111111#6 }.writePinOut ((s.pinOut &&& pwmMask) ||| fwdPattern)
    .next ({ s1 with mref := ref, cb := 1#8 }.complete .ok)

/-- `toggle_dir(side)` (R141): flip both enables of one motor, whatever `PIN_DIR` holds. -/
def State.toggleDir (s : State) (side : MotorSide) : State :=
  s.writePinOut (s.pinOut ^^^ enMask side)

/-- `CHDIR side` (R141). -/
def execChdir (side : MotorSide) (s : State) : Answer := .next ((s.toggleDir side).complete .ok)

/-- `enter_setdc(pct)` (R143). -/
def State.enterSetdc (s : State) (pct : Byte) : State :=
  if validPercent pct then s.push (.setdc pct .test) else s.returnToCaller .rangeExceeded

/-- `SETDC pct` (R142): the accept step is `enter_setdc(VAL)`. -/
def execSetdc (val : Byte) (s : State) : Answer := .next (s.enterSetdc val)

/-- Phase `S_TEST` (R144), the loop test. -/
def setdcTest (pct : Byte) (rest : List Frame) (s : State) : Answer :=
  withFlag s.mref s fun f =>
    if s.mstop = 0#1 ∧ f = 0#8 then
      .next { s.writePinOut (s.pinOut ||| pwmMask) with seq := .setdc pct .on :: rest }
    else .next ({ s with mstop := 0#1 }.ret .ok)

/-- Phase `S_ON` (R145): the on-delay, with this frame, already at `S_LOW`, as caller. -/
def setdcOn (pct : Byte) (rest : List Frame) (s : State) : Answer :=
  callDelay (onTicks pct * s.params.pwmTickMs) s { s with seq := .setdc pct .low :: rest }

/-- Phase `S_LOW` (R146). -/
def setdcLow (pct : Byte) (rest : List Frame) (s : State) : Answer :=
  .next { s.writePinOut (s.pinOut &&& ~~~pwmMask) with seq := .setdc pct .off :: rest }

/-- Phase `S_OFF` (R147): the off-delay, with this frame, already at `S_TEST`, as caller. -/
def setdcOff (pct : Byte) (rest : List Frame) (s : State) : Answer :=
  callDelay (offTicks pct * s.params.pwmTickMs) s { s with seq := .setdc pct .test :: rest }

/-- `ROT` (R149), the accept step: the flag check, the first toggle, `ROTFIN` under
`SETDC(50, S_TEST)`. -/
def execRot (s : State) : Answer :=
  withFlag s.mref s fun f =>
    if f ≠ 0#8 then .next (s.complete .aborted)
    else .next (((s.toggleDir .right).push .rotfin).enterSetdc Config.rotationDutyCycle)

/-- `ROTFIN` (R150): the second toggle, then the result of `ROT`. -/
def rotFin (s : State) : Answer := .next ((s.toggleDir .right).ret .ok)

/-- `STOP` (R151). -/
def execStop (s : State) : Answer :=
  .next ({ s.writePinOut (s.pinOut &&& ~~~pwmMask) with mstop := 0#1 }.complete .ok)

/-- `UPDSF` (R152). -/
def execUpdsf (s : State) : Answer := .next (s.updateStopFlag.complete .ok)

end Sys2Proof.Machine
end

