-- ==== Sys2Proof/Machine/Dispatch.lean ====
section
/-! DEFINITION. The accept-time part of every command (spec/30_encoding.md R80): one arm per
constructor of Instr. `exec i s` is the command's rule in the state `s` that the accept step has
reached after `emit(Issue(word))`; whether a word is accepted at all is Machine/Moves.lean. -/

namespace Sys2Proof.Machine

def exec (i : Instr) (s : State) : Host.Outcome State Fault Refusal :=
  match i with
  | .cfgnm sel ref => Sys2Proof.Machine.execCfgnm sel ref s
  | .delay ms => Sys2Proof.Machine.execDelay ms s
  | .setcb val => Sys2Proof.Machine.execSetcb val s
  | .minit ref => Sys2Proof.Machine.execMinit ref s
  | .chdir side => Sys2Proof.Machine.execChdir side s
  | .setdc val => Sys2Proof.Machine.execSetdc val s
  | .rot => Sys2Proof.Machine.execRot s
  | .stop => Sys2Proof.Machine.execStop s
  | .updsf => Sys2Proof.Machine.execUpdsf s

end Sys2Proof.Machine
end

