-- ==== Sys2Proof/Machine/Environment.lean ====
section
/-! DEFINITION. What the outside world does to the block: the environment's writes of the flag cells
(spec/43_sudden_stop.md R170, R171, 60_exceptions R189) and the reset input (70_reset_and_hazards
R210). -/

namespace Sys2Proof.Machine

/-- The byte that a level stores: 0 Down, 1 Up (20_memory R61, R63). -/
def levelByte (v : BitVec 1) : Byte := v.setWidth 8

/-- `EnvWrite(k, v)` (R170): it changes nothing but the cell. -/
def State.envWrite (s : State) (cell : Fin 2) (v : BitVec 1) : State :=
  { s with mem := s.mem.write cell.val (levelByte v) }

/-- The reset input (R210): every piece of block state takes its reset value; the flag cells are not
the block's (R211), and the parameters, the host's words and the coming moves are not either
(log 6). -/
def State.assertReset (s : State) : State :=
  { State.reset with mem := s.mem, params := s.params, cmds := s.cmds, agenda := s.agenda }

/-- The external stop edge under a wiring (R171, R189): it sets its cell Up. -/
def stopEdge (w : Config.Wiring) : Move := .envWrite w.stopCell 1#1

/-- The external start edge under a wiring (R171, R189): it sets its cell Down. -/
def startEdge (w : Config.Wiring) : Move := .envWrite w.startCell 0#1

/-- The boot order of R218 under a wiring: arm the interrupt, initialise the motors, stop. -/
def bootCommands (w : Config.Wiring) : List Instr :=
  [.cfgnm 1#8 w.timerRef, .minit w.motorRef, .stop]

end Sys2Proof.Machine
end

