-- ==== Sys2Proof/Machine/Interrupt.lean ====
section
/-! DEFINITION. The overflow interrupt service (spec/60_exceptions.md R186, R188): one atomic step;
nothing is saved, nothing is restored, and the sequencer goes on from the same `SEQ`. -/

namespace Sys2Proof.Machine

/-- What the service does when its count is reached or the flag is Up (R186): the count goes back to
0, the timer stops, the subscriber is invoked. -/
def State.serveOverflow (s : State) : State := invokeCallback { s with isrCnt := 0#16 }.stopTimer

/-- `Isr` (R186). It leaves `T_FLG` alone (10_state R24). -/
def isr (s : State) : Answer :=
  withFlag s.tref s fun f =>
    let c := s.isrCnt + 1#16
    let s1 := { s with ovfPend := 0#1, isrCnt := c }.emit (.isr c)
    if s.ovfNeeded ≤ c ∨ f ≠ 0#8 then .next s1.serveOverflow else .next s1

end Sys2Proof.Machine
end

