-- ==== Sys2Proof/Machine/Moves.lean ====
section
/-! DEFINITION. The step relation of spec/10_state.md R41: when each move is enabled, what it does,
and which move comes next. -/

namespace Sys2Proof.Machine

/-- `Accept` is enabled (R41, 30_encoding R80). -/
abbrev State.acceptEnabled (s : State) : Prop := s.seq = [] ∧ s.fault = 0#8 ∧ s.ovfPend = 0#1

/-- The top frame, if it is a `DPOLL`, has an overflow to consume (R41, 40_timer_delay R113). -/
def pollReady (flg : Byte) : List Frame → Bool
  | .dpoll _ :: _ => decide (tovOf flg = 1#1)
  | _ => true

/-- `SeqStep` is enabled (R41). -/
abbrev State.seqEnabled (s : State) : Prop :=
  s.seq ≠ [] ∧ s.fault = 0#8 ∧ s.ovfPend = 0#1 ∧ pollReady s.tFlg s.seq = true

/-- `Tick` is enabled (R41, 40_timer_delay R117). -/
abbrev State.tickEnabled (s : State) : Prop :=
  s.timerRunning ∧ s.fault = 0#8 ∧ s.ovfPend = 0#1

/-- `Isr` is enabled (R41, 60_exceptions R186). -/
abbrev State.isrEnabled (s : State) : Prop := s.ovfPend = 1#1 ∧ s.fault = 0#8

/-- `SeqStep`: the rule of the top frame (R41; 40_timer_delay R113, 42_motor_control R144 to R150).
The empty stack has no step. -/
def seqStep (s : State) : Answer :=
  match s.seq with
  | [] => .next s
  | .dpoll cnt :: rest => pollStep cnt rest s
  | .setdc pct .test :: rest => setdcTest pct rest s
  | .setdc pct .on :: rest => setdcOn pct rest s
  | .setdc pct .low :: rest => setdcLow pct rest s
  | .setdc pct .off :: rest => setdcOff pct rest s
  | .rotfin :: _ => rotFin s

/-- `Accept(word)` (30_encoding R80): log the word, decode it, complete a reserved word with
`InvalidArgument` (R86) or run the accept-time part of the command. -/
def accept (w : CmdWord) (s : State) : Answer :=
  let s1 := s.emit (.issue w)
  match decode w with
  | .error _ => .next (s1.complete .invalidArgument)
  | .ok i => exec i s1

/-- The host presents its next word (30_encoding R80): accepted where that is enabled, lost without
effect where it is not (70_reset_and_hazards R220). -/
def presentWord (s : State) : Answer :=
  match s.cmds with
  | [] => .next s
  | w :: ws =>
    let s1 := { s with cmds := ws }
    if s1.acceptEnabled then accept w s1 else .next s1

/-- One move. A move of the block that is not enabled cannot happen (00_scope R15): nothing does. -/
def takeMove (m : Move) (s : State) : Answer :=
  match m with
  | .present => presentWord s
  | .seqStep => if s.seqEnabled then seqStep s else .next s
  | .tick => if s.tickEnabled then .next (tick s) else .next s
  | .isr => if s.isrEnabled then isr s else .next s
  | .envWrite cell v => .next (s.envWrite cell v)
  | .reset => .next s.assertReset

/-- The eager schedule of 95_test_vectors: `Isr` before the sequencer, both before the timer. The
host presents its next word only when it can be accepted (30_encoding R90). No move where nothing
is enabled: the block is idle, hung (70_reset_and_hazards R224) or halted (60_exceptions R182). -/
def eagerMove (s : State) : Option Move :=
  if s.isrEnabled then some .isr
  else if s.seqEnabled then some .seqStep
  else if s.acceptEnabled ∧ s.cmds ≠ [] then some .present
  else if s.tickEnabled then some .tick
  else none

/-- The move that comes next: the agenda's, or the eager schedule's where the agenda is empty
(log 1). -/
def nextMove (s : State) : Option Move :=
  match s.agenda with
  | m :: _ => some m
  | [] => eagerMove s

/-- The start of a step: the move leaves the agenda, and a `CB_STROBE` pulse of the step before is
over (log 4). -/
def State.startStep (s : State) : State := { s with agenda := s.agenda.tail, cbOut := none }

end Sys2Proof.Machine
end

