-- ==== Sys2Proof/Machine/Step.lean ====
section
/-! DEFINITION. One step of the machine: the next move of the schedule (spec/10_state.md R41, log 1),
and the host's placing of a command word (log 7). -/

namespace Sys2Proof.Machine

/-- One step: the next move, or waiting where no move is left to take. -/
def step (s : State) : Host.Outcome State Fault Refusal :=
  match nextMove s with
  | some m => takeMove m s.startStep
  | none => .next s.startStep

/-- The state in which the command word with the bits `w` is the host's next word and presenting it
is the next move: the very next step accepts it where `Accept` is enabled (30_encoding R80). -/
def State.withFetchWord (s : State) (nbits w : Nat) : State :=
  { s with cmds := tableWord nbits w :: s.cmds, agenda := .present :: s.agenda }

end Sys2Proof.Machine
end

