-- ==== Sys2Proof/Machine/Views.lean ====
section
/-! DEFINITION. What is read off the state without being state (spec/10_state.md R36, R40) and the
register numbers, which are only labels (R20 to R34). -/

namespace Sys2Proof.Machine

/-- The number of a register (10_state R20 to R34). -/
def Reg.number : Reg → Nat
  | .tCtrl => 0
  | .tCnt => 1
  | .tIen => 2
  | .tFlg => 3
  | .ovfNeeded => 4
  | .isrCnt => 5
  | .tref => 6
  | .mref => 7
  | .cb => 8
  | .mstop => 9
  | .result => 10
  | .fault => 11
  | .pinDir => 12
  | .pinOut => 13

/-- `BUSY` (R36). -/
def State.busy (s : State) : Bool := decide (s.seq ≠ [] ∨ s.fault ≠ 0#8)

/-- `MSTATE` (R36): the state machine over motor motion. -/
inductive MotorState where
  | stopped
  | driving (pct : Byte)
  | rotating
deriving DecidableEq, Repr

/-- The percent of the first duty-cycle frame of a stack. -/
def drivingPercent : List Frame → Option Byte
  | [] => none
  | .setdc pct _ :: _ => some pct
  | .dpoll _ :: rest => drivingPercent rest
  | .rotfin :: rest => drivingPercent rest

/-- `MSTATE`, read off `SEQ` (R36). -/
def State.motorState (s : State) : MotorState :=
  if .rotfin ∈ s.seq then .rotating
  else match drivingPercent s.seq with
    | some pct => .driving pct
    | none => .stopped

/-- A motor pin as the board sees it (R34, R40): its level when the pin is an output, high impedance
(none) otherwise. -/
def State.pin (s : State) (i : Fin 6) : Option Bool :=
  if s.pinDir.getLsbD i.val then some (s.pinOut.getLsbD i.val) else none

/-- `CB_STROBE` (R40): the last step pulsed `CB_OUT`. -/
def State.cbStrobe (s : State) : Bool := s.cbOut.isSome

end Sys2Proof.Machine
end

