-- ==== Sys2Proof/Safety.lean ====
section
/-! DEFINITION. What claims about the block speak of: the legal stacks, the invariant that every move
keeps, and the three states in which no move of the block is enabled (idle, hung, halted). -/

namespace Sys2Proof.Machine

/-- The phase a duty-cycle frame waits in while a delay runs on top of it: `S_LOW` after the on-delay,
`S_TEST` after the off-delay (spec/42_motor_control.md R145, R147, R154). -/
abbrev Phase.waiting (ph : Phase) : Prop := ph = .low ∨ ph = .test

/-- What may lie under a duty-cycle frame (10_state R35): nothing, for the host's `SETDC`, whose
percent is in range (42_motor_control R143); or the `ROTFIN` of a rotate, whose loop runs at 50
percent (R149). -/
def legalBelowLoop (pct : Byte) : List Frame → Prop
  | [] => validPercent pct
  | .rotfin :: rest => pct = Config.rotationDutyCycle ∧ rest = []
  | .setdc _ _ :: _ => False
  | .dpoll _ :: _ => False

/-- The stacks that occur (10_state R35): `[]`, `[DPOLL]`, `[SETDC]`, `[DPOLL, SETDC]`, `[ROTFIN]`,
`[SETDC, ROTFIN]`, `[DPOLL, SETDC, ROTFIN]`. -/
def legalStack : List Frame → Prop
  | [] => True
  | .rotfin :: rest => rest = []
  | .setdc pct _ :: rest => legalBelowLoop pct rest
  | [.dpoll _] => True
  | .dpoll _ :: .setdc pct ph :: rest => ph.waiting ∧ legalBelowLoop pct rest
  | .dpoll _ :: .rotfin :: _ => False
  | .dpoll _ :: .dpoll _ :: _ => False

/-- The stack is in the high part of a PWM period: between `S_TEST` and `S_LOW` (42_motor_control
R144, R146, R155). -/
def pwmPhase : List Frame → Bool
  | .setdc _ .on :: _ => true
  | .setdc _ .low :: _ => true
  | .dpoll _ :: .setdc _ .low :: _ => true
  | _ => false

/-- A delay is waiting for overflows. -/
def polling : List Frame → Bool
  | .dpoll _ :: _ => true
  | _ => false

/-- `POLL_CNT` of the delay in flight, if any (10_state R28). -/
def pollCount : List Frame → Option Count
  | .dpoll cnt :: _ => some cnt
  | _ => none

/-- A duty-cycle loop or a rotate that has passed a flag read: `S_ON`, `S_LOW`, `S_OFF`, a running
delay of the loop, or any stack of a rotate (42_motor_control R144, R149). -/
def motorFlagRead : List Frame → Bool
  | .setdc _ ph :: rest => decide (ph ≠ .test) || decide (rest ≠ [])
  | .dpoll _ :: rest => decide (rest ≠ [])
  | .rotfin :: _ => true
  | [] => false

/-- The invariant of the block: what the rules promise of every state of a run. -/
structure Inv (s : State) : Prop where
  /-- The flag space is in its canonical form. -/
  memWf : s.mem.wf = true
  /-- A cell holds Down or Up (20_memory R61, R63). -/
  memBinary : s.mem.binary = true
  /-- `T_CTRL` is stopped or /1024, normal mode (10_state R20, R21, U7). -/
  ctrl : s.tCtrl = 0x00#8 ∨ s.tCtrl = 0x05#8
  /-- Bits 7 to 1 of `T_IEN` are 0 (R23). -/
  ien : s.tIen = 0x00#8 ∨ s.tIen = 0x01#8
  /-- Bits 7 to 1 of `T_FLG` are 0 (R24). -/
  flg : s.tFlg = 0x00#8 ∨ s.tFlg = 0x01#8
  /-- The reference code 3 is never stored (R29). -/
  trefLegal : legalRef s.tref
  /-- The reference code 3 is never stored (R29). -/
  mrefLegal : legalRef s.mref
  /-- Codes above 3 are never written to `RESULT` (60_exceptions R180, R181). -/
  resultCode : s.result ≤ 3#8
  /-- `FAULT` is 0 or `NullFlagRef` (10_state R33). -/
  faultCode : s.fault = 0#8 ∨ s.fault = 1#8
  /-- The stack is one of those that occur (R35). -/
  stack : legalStack s.seq
  /-- The timer runs only while a delay waits (70_reset_and_hazards R222). -/
  running : s.timerRunning → polling s.seq = true
  /-- `TOV` is 0 unless a delay waits (R222). -/
  tovQuiet : polling s.seq = false → s.tFlg = 0x00#8
  /-- An overflow interrupt is pending only while a delay waits. -/
  pendQuiet : polling s.seq = false → s.ovfPend = 0#1
  /-- A waiting delay has read the flag through a reference that is not null (60_exceptions R190). -/
  trefSet : polling s.seq = true → s.tref ≠ 0#2
  /-- A loop past its first test, and a rotate, have read the flag through `MREF` (42_motor_control
  R144, R149). -/
  mrefSet : motorFlagRead s.seq = true → s.mref ≠ 0#2
  /-- `POLL_CNT` has not reached `OVF_NEEDED` (40_timer_delay R113), so it never wraps (R120). -/
  pollBelow : ∀ cnt, pollCount s.seq = some cnt → cnt < s.ovfNeeded
  /-- `ISR_CNT` has not reached 65535 (60_exceptions R186), so it never wraps (R120). -/
  isrBelow : s.isrCnt < 65535#16
  /-- Both PWM pins are high between `S_TEST` and `S_LOW` and low otherwise (42_motor_control
  R155). -/
  pwm : s.pinOut &&& pwmMask = if pwmPhase s.seq then pwmMask else 0#6
  /-- A rotate whose inner loop has returned finds `MSTOP` clear (42_motor_control R144). -/
  rotateClear : s.seq = [.rotfin] → s.mstop = 0#1
  /-- `TICK_NS` is positive (00_scope R7). -/
  tick : s.params.legal

/-- The block is idle: the host may issue a command (10_state R36, R41). -/
abbrev State.idle (s : State) : Prop := s.acceptEnabled

/-- The block is halted by a fault (60_exceptions R182). -/
abbrev State.halted (s : State) : Prop := s.fault ≠ 0#8

/-- The block hangs: it is busy without a fault, and none of its moves is enabled
(70_reset_and_hazards R224, R237). -/
abbrev State.hung (s : State) : Prop :=
  s.seq ≠ [] ∧ s.fault = 0#8 ∧ ¬ s.seqEnabled ∧ ¬ s.tickEnabled ∧ ¬ s.isrEnabled

/-- The safe state (43_sudden_stop R173): the timer stopped, both PWM pins low. -/
abbrev State.safe (s : State) : Prop := ¬ s.timerRunning ∧ s.pinOut &&& pwmMask = 0#6

/-- The block's own part of the state: every register, the stack and the log. The flag cells, the
output pulse and the two lists of inputs are set aside. -/
def State.blockPart (s : State) : State := { s with cbOut := none, mem := [], cmds := [], agenda := [] }

/-- A flag read through `ref` gives the byte `b` (20_memory R64): the reference is not null and its
cell holds `b`. -/
abbrev State.flagAt (s : State) (ref : FlagRef) (b : Byte) : Prop :=
  ref ≠ 0#2 ∧ s.mem.read (ref.toNat - 1) = some b

/-- The next move presents a word that decodes to `i`. -/
abbrev State.presents (s : State) (i : Instr) : Prop :=
  nextMove s = some .present ∧ ∃ w, s.cmds.head? = some w ∧ decode w = .ok i

/-- The next move is the sequencer's, with the frame `f` on top. -/
abbrev State.sequences (s : State) (f : Frame) : Prop :=
  nextMove s = some .seqStep ∧ s.seq.head? = some f

/-- A delay of `m` milliseconds passes its checks (40_timer_delay R112): in range, the flag behind
`TREF` Down. -/
abbrev State.delayPasses (s : State) (m : Nat) : Prop :=
  (∃ p, plan s.params.tickNs m = some p) ∧ s.flagAt s.tref 0#8

/-- A delay of `m` milliseconds is refused with a code (R112): out of range, or the flag Up. -/
abbrev State.delayRefused (s : State) (m : Nat) : Prop :=
  plan s.params.tickNs m = none ∨ ∃ b, s.flagAt s.tref b ∧ b ≠ 0#8

/-- The commands that can leave frames on the stack (70_reset_and_hazards R232). -/
abbrev blockingCommand (i : Instr) : Prop :=
  (∃ ms, i = .delay ms) ∨ (∃ pct, i = .setdc pct) ∨ i = .rot

/-- How many of the first `k` steps from a state are counts of the timer (40_timer_delay R107,
R118). -/
def tickCount : Nat → State → Nat
  | 0, _ => 0
  | k + 1, s =>
    (if nextMove s = some .tick ∧ s.tickEnabled then 1 else 0)
      + match step s with
        | .next t => tickCount k t
        | .fault _ => 0
        | .refused _ => 0

end Sys2Proof.Machine
end

