-- ==== Sys2Proof/Certificates/Slice0/Obligations.lean ====
section
/-! DEFINITION. The statements about the block, one def per statement; OBLIGATIONS.json lists them. -/

open Sys2Proof Sys2Proof.Machine

/-! ## The encoding (spec/30_encoding.md) -/

/-- R81, R82, R84, R85: the decoder reads back every well-formed command from its word. -/
def Obligations.DecodeAfterEncode : Prop :=
  ∀ i : Instr, i.wellFormed = true → decode (encode i) = .ok i

/-- R81 to R85: a word that decodes is the one word of a well-formed command, so no two words are
the same command and no bit of a word is dropped. -/
def Obligations.EncodeAfterDecode : Prop :=
  ∀ (w : CmdWord) (i : Instr), decode w = .ok i → i.wellFormed = true ∧ encode i = w

/-- R82, R84, R85, R87: the reserved words are exactly those with the opcode 0x00 or above 0x09, a
reserved bit of their format set, or the reference code 3. -/
def Obligations.ReservedWordsAreExactly : Prop :=
  ∀ w : CmdWord, (∃ r, decode w = .error r) ↔
    (w.extractLsb' 32 8 = 0x00#8
      ∨ 0x09#8 < w.extractLsb' 32 8
      ∨ (w.extractLsb' 32 8 = 0x01#8 ∧ (w.extractLsb' 10 22 ≠ 0#22 ∨ w.extractLsb' 8 2 = 3#2))
      ∨ (w.extractLsb' 32 8 = 0x03#8 ∧ w.extractLsb' 8 24 ≠ 0#24)
      ∨ (w.extractLsb' 32 8 = 0x04#8 ∧ (w.extractLsb' 2 30 ≠ 0#30 ∨ w.extractLsb' 0 2 = 3#2))
      ∨ (w.extractLsb' 32 8 = 0x05#8 ∧ w.extractLsb' 1 31 ≠ 0#31)
      ∨ (w.extractLsb' 32 8 = 0x06#8 ∧ w.extractLsb' 8 24 ≠ 0#24)
      ∨ (w.extractLsb' 32 8 = 0x07#8 ∧ w.extractLsb' 0 32 ≠ 0#32)
      ∨ (w.extractLsb' 32 8 = 0x08#8 ∧ w.extractLsb' 0 32 ≠ 0#32)
      ∨ (w.extractLsb' 32 8 = 0x09#8 ∧ w.extractLsb' 0 32 ≠ 0#32))

/-- R92: the example words decode to the commands that the rule writes beside them, and its reserved
words do not decode. -/
def Obligations.ExampleWordsDecode : Prop :=
  decode 0x0100000100#40 = .ok (.cfgnm 0#8 1#2)
    ∧ decode 0x0100000101#40 = .ok (.cfgnm 1#8 1#2)
    ∧ decode 0x0100000201#40 = .ok (.cfgnm 1#8 2#2)
    ∧ decode 0x02000003E8#40 = .ok (.delay 1000#32)
    ∧ decode 0x020020C47B#40 = .ok (.delay 2147451#32)
    ∧ decode 0x0300000001#40 = .ok (.setcb 1#8)
    ∧ decode 0x0400000001#40 = .ok (.minit 1#2)
    ∧ decode 0x0500000001#40 = .ok (.chdir .left)
    ∧ decode 0x0600000023#40 = .ok (.setdc 35#8)
    ∧ decode 0x0700000000#40 = .ok .rot
    ∧ decode 0x0800000000#40 = .ok .stop
    ∧ decode 0x0900000000#40 = .ok .updsf
    ∧ decode 0x0000000000#40 = .error .opcode
    ∧ decode 0x0A00000000#40 = .error .opcode
    ∧ decode 0x0700000001#40 = .error .reservedBits
    ∧ decode 0x0100000300#40 = .error .reference
    ∧ decode 0x0600000123#40 = .error .reservedBits

/-! ## The command port (30_encoding R80, R86; 70_reset_and_hazards R220) -/

/-- R80: a step that accepts a word which decodes to `i` is `exec i`, in the state whose log has
gained `Issue(word)`. The model's choices: the word and the move leave their lists (log 1), the last
pulse on `CB_OUT` is over (log 4), and `Issue` stays in the log where `exec` raises the fault
(log 5). -/
def Obligations.StepRunsAcceptedCommand : Prop :=
  ∀ (s : State) (w : CmdWord) (ws : List CmdWord) (i : Instr),
    s.seq = [] → s.fault = 0#8 → s.ovfPend = 0#1 →
    nextMove s = some .present → s.cmds = w :: ws → decode w = .ok i →
    step s = exec i { s with
      cmds := ws, agenda := s.agenda.tail, cbOut := none, evt := s.evt ++ [.issue w] }

/-- R80 with the model's placing of a word (log 7): the very next step runs the placed command. The
model's choices also: the last pulse on `CB_OUT` is over (log 4), and `Issue` stays in the log where
`exec` raises the fault (log 5). -/
def Obligations.StepRunsPlacedCommand : Prop :=
  ∀ (s : State) (w : Nat) (i : Instr),
    s.seq = [] → s.fault = 0#8 → s.ovfPend = 0#1 → decodeTableWord 40 w = some i →
    step (s.withFetchWord 40 w)
      = exec i { s with cbOut := none, evt := s.evt ++ [.issue (BitVec.ofNat 40 w)] }

/-- R86: a reserved word completes in the accept step with `InvalidArgument`; nothing else of the
block changes. The opcodes 0x00 and 0x0A to 0xFF are all reserved. The model's choices: the word and
the move leave their lists (log 1), and the last pulse on `CB_OUT` is over (log 4). -/
def Obligations.ReservedWordCompletes : Prop :=
  (∀ (s : State) (w : CmdWord) (ws : List CmdWord) (r : Reserved),
    s.seq = [] → s.fault = 0#8 → s.ovfPend = 0#1 →
    nextMove s = some .present → s.cmds = w :: ws → decode w = .error r →
    step s = .next { s with
      cmds := ws, agenda := s.agenda.tail, cbOut := none
      result := 1#8, evt := s.evt ++ [.issue w, .result 1#8] })
  ∧ ∀ w : CmdWord, w.extractLsb' 32 8 = 0x00#8 ∨ 0x09#8 < w.extractLsb' 32 8 →
      ∃ r, decode w = .error r

/-- R80, R220: a word presented while `Accept` is not enabled is lost without effect on the block.
The model's choices: the word and the move leave their lists (log 1), and the last pulse on `CB_OUT`
is over (log 4). -/
def Obligations.WordWhileBusyIsLost : Prop :=
  ∀ (s : State) (w : CmdWord) (ws : List CmdWord),
    s.seq ≠ [] ∨ s.fault ≠ 0#8 ∨ s.ovfPend ≠ 0#1 →
    nextMove s = some .present → s.cmds = w :: ws →
    step s = .next { s with cmds := ws, agenda := s.agenda.tail, cbOut := none }

/-- R36, R80: in the states the block keeps to, a command can be accepted exactly while `BUSY` is
0. -/
def Obligations.AcceptsExactlyWhenNotBusy : Prop :=
  ∀ s : State, Inv s → (s.acceptEnabled ↔ s.busy = false)

/-! ## The one-step commands -/

/-- R110: `CFGNM` with a valid selector; and with any other. -/
def Obligations.CfgnmConfigures : Prop :=
  ∀ (s : State) (sel : Byte) (ref : FlagRef), ref ≠ 3#2 →
    (sel ≤ 1#8 → exec (.cfgnm sel ref) s = .next { s with
      tCtrl := s.tCtrl &&& 0xF7#8
      tIen := (s.tIen &&& 0xFE#8) ||| sel
      tref := ref
      result := 0#8
      evt := s.evt
        ++ [.regWrite .tCtrl (s.tCtrl &&& 0xF7#8), .regWrite .tIen sel, .result 0#8] })
    ∧ (1#8 < sel → exec (.cfgnm sel ref) s = .next { s with
      result := 1#8, evt := s.evt ++ [.result 1#8] })

/-- R130: `SETCB` stores the subscriber and refuses the null one; no command returns the slot to
0. -/
def Obligations.SetcbStoresSubscriber : Prop :=
  (∀ (s : State) (val : Byte), val ≠ 0#8 → exec (.setcb val) s = .next { s with
      cb := val, result := 0#8, evt := s.evt ++ [.result 0#8] })
  ∧ (∀ s : State, exec (.setcb 0#8) s = .next { s with
      result := 1#8, evt := s.evt ++ [.result 1#8] })
  ∧ ∀ (i : Instr) (s t : State), exec i s = .next t → s.cb ≠ 0#8 → t.cb ≠ 0#8

/-- R140: `MINIT` makes all pins outputs, sets the forward pattern, keeps the PWM bits, records the
reference and subscribes `updateStopFlag`. -/
def Obligations.MinitInitialises : Prop :=
  ∀ (s : State) (ref : FlagRef), ref ≠ 3#2 →
    exec (.minit ref) s = .next { s with
      pinDir := 0b111111#6
      pinOut := (s.pinOut &&& 0b100100#6) ||| 0b001001#6
      mref := ref
      cb := 1#8
      result := 0#8
      evt := s.evt ++ [.pinWrite 0b111111#6 ((s.pinOut &&& 0b100100#6) ||| 0b001001#6),
        .result 0#8] }

/-- R141: `CHDIR` flips the enable pair of its motor, whatever `PIN_DIR` holds, and two `CHDIR` of
one side restore the pattern. -/
def Obligations.ChdirTogglesOnePair : Prop :=
  ∀ s : State,
    exec (.chdir .right) s = .next { s with
      pinOut := s.pinOut ^^^ 0b000011#6
      result := 0#8
      evt := s.evt ++ [.pinWrite s.pinDir (s.pinOut ^^^ 0b000011#6), .result 0#8] }
    ∧ exec (.chdir .left) s = .next { s with
      pinOut := s.pinOut ^^^ 0b011000#6
      result := 0#8
      evt := s.evt ++ [.pinWrite s.pinDir (s.pinOut ^^^ 0b011000#6), .result 0#8] }
    ∧ ∀ (d : MotorSide) (t u : State),
      exec (.chdir d) s = .next t → exec (.chdir d) t = .next u → u.pinOut = s.pinOut

/-- 42_motor_control section 4 (`STOP`): the PWM pins go low and `MSTOP` is cleared; a second `STOP`
changes nothing but the log. -/
def Obligations.StopLowersPwmPins : Prop :=
  ∀ s : State,
    exec .stop s = .next { s with
      pinOut := s.pinOut &&& 0b011011#6
      mstop := 0#1
      result := 0#8
      evt := s.evt ++ [.pinWrite s.pinDir (s.pinOut &&& 0b011011#6), .result 0#8] }
    ∧ ∀ t : State, exec .stop s = .next t →
      exec .stop t = .next { t with evt := t.evt ++ [.pinWrite t.pinDir t.pinOut, .result 0#8] }

/-- 42_motor_control section 4 (`UPDSF`): the internal stop flag is set. -/
def Obligations.UpdsfSetsStopFlag : Prop :=
  ∀ s : State, exec .updsf s = .next { s with
    mstop := 1#1, result := 0#8, evt := s.evt ++ [.result 0#8] }

/-! ## `DELAY`, `SETDC`, `ROT`: the accept step -/

/-- R112 at accept time: a delay in range whose flag is Down starts the timer at the preload of its
plan and leaves `DPOLL(0)`; it writes neither `T_FLG` nor `ISR_CNT` nor `RESULT`. -/
def Obligations.DelayStartsTimer : Prop :=
  ∀ (s : State) (ms : Millis) (p : Plan),
    plan s.params.tickNs ms.toNat = some p → s.flagAt s.tref 0#8 →
    exec (.delay ms) s = .next { s with
      tCtrl := 0x05#8
      tCnt := BitVec.ofNat 8 p.preload
      ovfNeeded := BitVec.ofNat 16 p.needed
      seq := .dpoll 0#16 :: s.seq
      evt := s.evt ++ [.regWrite .tCtrl 0x00#8, .regWrite .tCnt (BitVec.ofNat 8 p.preload),
        .regWrite .tCtrl 0x05#8] }

/-- R101, R112, R183: out of range `DELAY` answers `RangeExceeded` whatever `TREF` and the flag are;
then a null `TREF` raises `NullFlagRef` and changes nothing else; then a flag that is Up answers
`Aborted` with no register write. -/
def Obligations.DelayRefusals : Prop :=
  ∀ (s : State) (ms : Millis), s.seq = [] →
    (256 * s.params.tickNs * 65535 < ms.toNat * 1000000 →
      exec (.delay ms) s = .next { s with result := 2#8, evt := s.evt ++ [.result 2#8] })
    ∧ (ms.toNat * 1000000 ≤ 256 * s.params.tickNs * 65535 → s.tref = 0#2 →
      exec (.delay ms) s = .next { s with fault := 1#8 })
    ∧ (∀ b : Byte, ms.toNat * 1000000 ≤ 256 * s.params.tickNs * 65535 → s.flagAt s.tref b →
      b ≠ 0#8 → exec (.delay ms) s = .next { s with result := 3#8, evt := s.evt ++ [.result 3#8] })

/-- R142, R143: `SETDC` up to 100 percent enters its loop and changes nothing else, without reading
a flag; above 100 it answers `RangeExceeded`. -/
def Obligations.SetdcEntersLoop : Prop :=
  ∀ (s : State) (pct : Byte),
    (pct ≤ 100#8 → exec (.setdc pct) s = .next { s with seq := .setdc pct .test :: s.seq })
    ∧ (100#8 < pct → s.seq = [] → exec (.setdc pct) s = .next { s with
      result := 2#8, evt := s.evt ++ [.result 2#8] })

/-- 42_motor_control section 3 (`ROT`): with the flag Down the right motor is toggled once and the
loop at 50 percent is entered over `ROTFIN`; with the flag Up `Aborted` and no pin is touched; with
a null `MREF` the fault and nothing else. -/
def Obligations.RotStartsRotation : Prop :=
  ∀ s : State,
    (s.flagAt s.mref 0#8 → exec .rot s = .next { s with
      pinOut := s.pinOut ^^^ 0b000011#6
      seq := .setdc 50#8 .test :: .rotfin :: s.seq
      evt := s.evt ++ [.pinWrite s.pinDir (s.pinOut ^^^ 0b000011#6)] })
    ∧ (∀ b : Byte, s.flagAt s.mref b → b ≠ 0#8 → exec .rot s = .next { s with
      result := 3#8, evt := s.evt ++ [.result 3#8] })
    ∧ (s.mref = 0#2 → exec .rot s = .next { s with fault := 1#8 })

/-- The commands' frame (R63, R110 to R152): no command touches a flag cell, `T_FLG`, `OVF_PEND`,
`ISR_CNT`, `CB_OUT` or the parameters; only `CFGNM` writes `T_IEN` and `TREF`; only `MINIT` writes
`MREF` and `PIN_DIR`; only `SETCB` and `MINIT` write `CB`; only `STOP` and `UPDSF` write `MSTOP`;
only `CFGNM` and `DELAY` write `T_CTRL`; only `DELAY` writes `T_CNT` and `OVF_NEEDED`; only `MINIT`,
`CHDIR`, `ROT` and `STOP` write `PIN_OUT`; only `DELAY`, `SETDC` and `ROT` push frames; only `DELAY`
and `ROT` can raise a fault. -/
def Obligations.CommandsWriteOnlyTheirRegisters : Prop :=
  ∀ (i : Instr) (s t : State), exec i s = .next t →
    (∀ k : Nat, t.mem.read k = s.mem.read k)
    ∧ t.tFlg = s.tFlg ∧ t.ovfPend = s.ovfPend ∧ t.isrCnt = s.isrCnt ∧ t.cbOut = s.cbOut
    ∧ t.params = s.params ∧ t.cmds = s.cmds ∧ t.agenda = s.agenda
    ∧ ((∀ sel ref, i ≠ .cfgnm sel ref) → t.tIen = s.tIen ∧ t.tref = s.tref)
    ∧ ((∀ ref, i ≠ .minit ref) → t.mref = s.mref ∧ t.pinDir = s.pinDir)
    ∧ ((∀ ref, i ≠ .minit ref) → (∀ val, i ≠ .setcb val) → t.cb = s.cb)
    ∧ (i ≠ .stop → i ≠ .updsf → t.mstop = s.mstop)
    ∧ ((∀ sel ref, i ≠ .cfgnm sel ref) → (∀ ms, i ≠ .delay ms) → t.tCtrl = s.tCtrl)
    ∧ ((∀ ms, i ≠ .delay ms) → t.tCnt = s.tCnt ∧ t.ovfNeeded = s.ovfNeeded)
    ∧ ((∀ ref, i ≠ .minit ref) → (∀ d, i ≠ .chdir d) → i ≠ .rot → i ≠ .stop →
        t.pinOut = s.pinOut)
    ∧ ((∀ ms, i ≠ .delay ms) → (∀ pct, i ≠ .setdc pct) → i ≠ .rot → t.seq = s.seq)
    ∧ ((∀ ms, i ≠ .delay ms) → i ≠ .rot → t.fault = s.fault)

/-! ## The sequencer's steps -/

/-- R113: the poll step waits while `TOV` is 0. With `TOV` set it clears it and counts; at the last
overflow, or with the flag Up, it stops the timer and returns `OK`; otherwise the frame stays with
its count, which stays below 65535. A null `TREF` raises the fault and changes nothing else. -/
def Obligations.PollStepCountsOverflows : Prop :=
  ∀ (s : State) (cnt : Count) (rest : List Frame), s.seq = .dpoll cnt :: rest →
    s.fault = 0#8 → s.ovfPend = 0#1 →
    (s.tFlg.getLsbD 0 = false → takeMove .seqStep s = .next s)
    ∧ (s.tFlg.getLsbD 0 = true → s.tref = 0#2 →
      takeMove .seqStep s = .next { s with fault := 1#8 })
    ∧ (s.tFlg.getLsbD 0 = true → s.flagAt s.tref 0#8 → cnt + 1#16 < s.ovfNeeded →
      takeMove .seqStep s = .next { s with
        tFlg := s.tFlg &&& 0xFE#8
        seq := .dpoll (cnt + 1#16) :: rest
        evt := s.evt ++ [.regWrite .tFlg 0x00#8] }
      ∧ (cnt + 1#16).toNat < 65535)
    ∧ (∀ b : Byte, s.tFlg.getLsbD 0 = true → s.flagAt s.tref b →
      s.ovfNeeded ≤ cnt + 1#16 ∨ b ≠ 0#8 →
      (rest ≠ [] → takeMove .seqStep s = .next { s with
        tFlg := s.tFlg &&& 0xFE#8
        tCtrl := s.tCtrl &&& 0xF8#8
        seq := rest
        evt := s.evt ++ [.regWrite .tFlg 0x00#8, .regWrite .tCtrl (s.tCtrl &&& 0xF8#8)] })
      ∧ (rest = [] → takeMove .seqStep s = .next { s with
        tFlg := s.tFlg &&& 0xFE#8
        tCtrl := s.tCtrl &&& 0xF8#8
        seq := []
        result := 0#8
        evt := s.evt ++ [.regWrite .tFlg 0x00#8, .regWrite .tCtrl (s.tCtrl &&& 0xF8#8),
          .result 0#8] }))

/-- R144: the loop test raises both PWM pins and goes to `S_ON` while `MSTOP` is 0 and the flag is
Down; otherwise it clears `MSTOP` and returns `OK`; a null `MREF` raises the fault and changes
nothing else. -/
def Obligations.LoopTestDrivesOrReturns : Prop :=
  ∀ (s : State) (pct : Byte) (rest : List Frame), s.seq = .setdc pct .test :: rest →
    s.fault = 0#8 → s.ovfPend = 0#1 →
    (s.mref = 0#2 → takeMove .seqStep s = .next { s with fault := 1#8 })
    ∧ (s.flagAt s.mref 0#8 → s.mstop = 0#1 → takeMove .seqStep s = .next { s with
      pinOut := s.pinOut ||| 0b100100#6
      seq := .setdc pct .on :: rest
      evt := s.evt ++ [.pinWrite s.pinDir (s.pinOut ||| 0b100100#6)] })
    ∧ (∀ b : Byte, s.flagAt s.mref b → s.mstop = 1#1 ∨ b ≠ 0#8 →
      (rest ≠ [] → takeMove .seqStep s = .next { s with mstop := 0#1, seq := rest })
      ∧ (rest = [] → takeMove .seqStep s = .next { s with
        mstop := 0#1, seq := [], result := 0#8, evt := s.evt ++ [.result 0#8] }))

/-- R145, R147, R148 with R112: the on-phase calls a delay of `pct div 10` PWM ticks with the frame
already at `S_LOW`, the off-phase one of `10 - pct div 10` with the frame already at `S_TEST`. A
delay in range with the flag Down starts the timer on top of the frame; a delay that fails a check
pushes nothing, writes no register, and its code is dropped; a null `TREF` raises the fault and the
frame stays where it was. -/
def Obligations.LoopDelaysCallTheTimer : Prop :=
  ∀ (s : State) (pct : Byte) (rest : List Frame) (ph back : Phase) (m : Nat),
    s.seq = .setdc pct ph :: rest → s.fault = 0#8 → s.ovfPend = 0#1 → pct ≤ 100#8 →
    ((ph = .on ∧ back = .low ∧ m = pct.toNat / 10 * s.params.pwmTickMs)
      ∨ (ph = .off ∧ back = .test ∧ m = (10 - pct.toNat / 10) * s.params.pwmTickMs)) →
    (∀ p : Plan, plan s.params.tickNs m = some p → s.flagAt s.tref 0#8 →
      takeMove .seqStep s = .next { s with
        tCtrl := 0x05#8
        tCnt := BitVec.ofNat 8 p.preload
        ovfNeeded := BitVec.ofNat 16 p.needed
        seq := .dpoll 0#16 :: .setdc pct back :: rest
        evt := s.evt ++ [.regWrite .tCtrl 0x00#8, .regWrite .tCnt (BitVec.ofNat 8 p.preload),
          .regWrite .tCtrl 0x05#8] })
    ∧ (∀ (p : Plan) (b : Byte), plan s.params.tickNs m = some p → s.flagAt s.tref b → b ≠ 0#8 →
      takeMove .seqStep s = .next { s with seq := .setdc pct back :: rest })
    ∧ (plan s.params.tickNs m = none →
      takeMove .seqStep s = .next { s with seq := .setdc pct back :: rest })
    ∧ (∀ p : Plan, plan s.params.tickNs m = some p → s.tref = 0#2 →
      takeMove .seqStep s = .next { s with fault := 1#8 })

/-- R146: `S_LOW` lowers both PWM pins and goes to `S_OFF`; it reads no flag. -/
def Obligations.LowPhaseLowersPwmPins : Prop :=
  ∀ (s : State) (pct : Byte) (rest : List Frame), s.seq = .setdc pct .low :: rest →
    s.fault = 0#8 → s.ovfPend = 0#1 →
    takeMove .seqStep s = .next { s with
      pinOut := s.pinOut &&& 0b011011#6
      seq := .setdc pct .off :: rest
      evt := s.evt ++ [.pinWrite s.pinDir (s.pinOut &&& 0b011011#6)] }

/-- 42_motor_control section 3 (`ROTFIN`): the second toggle of the right motor, then `OK`. -/
def Obligations.RotateEndTogglesBack : Prop :=
  ∀ s : State, s.seq = [.rotfin] → s.fault = 0#8 → s.ovfPend = 0#1 →
    takeMove .seqStep s = .next { s with
      pinOut := s.pinOut ^^^ 0b000011#6
      seq := []
      result := 0#8
      evt := s.evt ++ [.pinWrite s.pinDir (s.pinOut ^^^ 0b000011#6), .result 0#8] }

/-! ## The timer, the interrupt, the environment, reset -/

/-- R117: a `Tick` is enabled while `CS` is not 0, no fault is recorded and no interrupt is pending;
it counts modulo 256, and the wrap sets `TOV` and, with `TOIE` set, `OVF_PEND`. It writes nothing
else, the log included. -/
def Obligations.TickCountsAndFlagsOverflow : Prop :=
  ∀ s : State,
    (s.tCtrl &&& 0x07#8 ≠ 0#8 → s.fault = 0#8 → s.ovfPend = 0#1 →
      takeMove .tick s = .next { s with
        tCnt := BitVec.ofNat 8 ((s.tCnt.toNat + 1) % 256)
        tFlg := if s.tCnt = 255#8 then s.tFlg ||| 0x01#8 else s.tFlg
        ovfPend := if s.tCnt = 255#8 ∧ s.tIen.getLsbD 0 = true then 1#1 else 0#1 })
    ∧ (s.tCtrl &&& 0x07#8 = 0#8 ∨ s.fault ≠ 0#8 ∨ s.ovfPend ≠ 0#1 →
      takeMove .tick s = .next s)

/-- R131, R186, R190: the interrupt service runs while an interrupt is pending and no fault is
recorded. It clears the latch and counts; at the count of the delay, or with the flag Up, it sets
the count back, stops the timer and invokes the subscriber: none, `updateStopFlag`, or a pulse of
`CB_OUT`. `T_FLG` and the sequencer are untouched, and a null `TREF` raises the fault and leaves the
latch and the count. In the states the block keeps to, the incremented count fits its 16 bits. -/
def Obligations.IsrServesOverflow : Prop :=
  ∀ s : State,
    (s.ovfPend = 0#1 ∨ s.fault ≠ 0#8 → takeMove .isr s = .next s)
    ∧ (s.ovfPend = 1#1 → s.fault = 0#8 → s.tref = 0#2 →
      takeMove .isr s = .next { s with fault := 1#8 })
    ∧ (s.ovfPend = 1#1 → s.fault = 0#8 → s.flagAt s.tref 0#8 →
      s.isrCnt + 1#16 < s.ovfNeeded →
      takeMove .isr s = .next { s with
        ovfPend := 0#1
        isrCnt := s.isrCnt + 1#16
        evt := s.evt ++ [.isr (s.isrCnt + 1#16)] })
    ∧ (∀ b : Byte, s.ovfPend = 1#1 → s.fault = 0#8 → s.flagAt s.tref b →
      s.ovfNeeded ≤ s.isrCnt + 1#16 ∨ b ≠ 0#8 →
      (s.cb = 0#8 → takeMove .isr s = .next { s with
        ovfPend := 0#1
        isrCnt := 0#16
        tCtrl := s.tCtrl &&& 0xF8#8
        evt := s.evt ++ [.isr (s.isrCnt + 1#16), .regWrite .tCtrl (s.tCtrl &&& 0xF8#8)] })
      ∧ (s.cb = 1#8 → takeMove .isr s = .next { s with
        ovfPend := 0#1
        isrCnt := 0#16
        tCtrl := s.tCtrl &&& 0xF8#8
        mstop := 1#1
        evt := s.evt ++ [.isr (s.isrCnt + 1#16), .regWrite .tCtrl (s.tCtrl &&& 0xF8#8),
          .cbInvoke 1#8] })
      ∧ (1#8 < s.cb → takeMove .isr s = .next { s with
        ovfPend := 0#1
        isrCnt := 0#16
        tCtrl := s.tCtrl &&& 0xF8#8
        cbOut := some s.cb
        evt := s.evt ++ [.isr (s.isrCnt + 1#16), .regWrite .tCtrl (s.tCtrl &&& 0xF8#8),
          .cbInvoke s.cb] }))
    ∧ (Inv s → s.isrCnt.toNat + 1 ≤ 65535)

/-- R62, R64, R170: an environment write is always enabled, also after a fault; reading its cell
afterwards, directly or through a reference, gives the level written; every other cell reads as
before, and nothing but the cell changes. -/
def Obligations.EnvWriteChangesOneCell : Prop :=
  ∀ (s : State) (k : Fin 2) (v : BitVec 1), s.mem.wf = true →
    ∃ t : State, takeMove (.envWrite k v) s = .next t
      ∧ t.mem.read k.val = some (v.setWidth 8)
      ∧ (∀ j : Nat, j ≠ k.val → t.mem.read j = s.mem.read j)
      ∧ (∀ ref : FlagRef, ref.toNat = k.val + 1 → t.flagAt ref (v.setWidth 8))
      ∧ { t with mem := s.mem } = s

/-- R60, R62, R64: a flag read reaches cell 0 through code 1, cell 1 through code 2, and no other
cell exists. -/
def Obligations.FlagSpaceHasTwoCells : Prop :=
  ∀ m : Memory,
    flagRead 0#2 m = .null
    ∧ (∃ b, m.read 0 = some b ∧ flagRead 1#2 m = .value b)
    ∧ (∃ b, m.read 1 = some b ∧ flagRead 2#2 m = .value b)
    ∧ ∀ k : Nat, 2 ≤ k → m.read k = none

/-- R42, R210, R211: reset gives every piece of block state the value of the table of R42, whatever
the block was doing, and leaves the flag cells alone; nothing else takes a recorded fault away. The
model's choices: no pulse on `CB_OUT` (log 4), and the parameters, the host's words and the coming
moves as they were (log 6). -/
def Obligations.ResetRestoresBlock : Prop :=
  (∀ s : State, takeMove .reset s = .next { s with
    tCtrl := 0x00#8, tCnt := 0x00#8, tIen := 0x00#8, tFlg := 0x00#8
    ovfPend := 0#1, ovfNeeded := 0#16, isrCnt := 0#16
    tref := 0#2, mref := 0#2, cb := 0#8, mstop := 0#1
    result := 0x00#8, fault := 0x00#8
    pinDir := 0b000000#6, pinOut := 0b000000#6
    seq := [], evt := [], cbOut := none })
  ∧ ∀ s t : State, s.fault ≠ 0#8 → step s = .next t → nextMove s ≠ some .reset →
      t.fault = s.fault

/-- R42: the machine right after reset, field by field, with the model's own choices (logs 1 to 4)
for the fields that R42 does not fix. -/
def Obligations.ResetState : Prop :=
  State.reset = {
    tCtrl := 0x00#8, tCnt := 0x00#8, tIen := 0x00#8, tFlg := 0x00#8
    ovfPend := 0#1, ovfNeeded := 0#16, isrCnt := 0#16
    tref := 0#2, mref := 0#2, cb := 0#8, mstop := 0#1
    result := 0x00#8, fault := 0x00#8
    pinDir := 0b000000#6, pinOut := 0b000000#6
    seq := [], evt := [], cbOut := none
    mem := [], params := { tickNs := 128000, pwmTickMs := 1 }, cmds := [], agenda := [] }
  ∧ State.reset.busy = false ∧ State.reset.motorState = .stopped

/-! ## The plan (40_timer_delay section 1) -/

/-- R101: the range check, for every tick, and its bound in the reference configuration. -/
def Obligations.PlanRangeCheck : Prop :=
  (∀ tickNs m : Nat, plan tickNs m = none ↔ 256 * tickNs * 65535 < m * 1000000)
  ∧ ∀ m : Nat, plan 128000 m = none ↔ 2147451 ≤ m

/-- R102, R104, R105 by what they amount to: in the short case one overflow after `floor(e / T)`
ticks, at least one; in the long case the least `n` periods that hold `e`, the first interval being
the remainder rounded to the nearest tick, ties up, at least one. -/
def Obligations.PlanShortAndLongCase : Prop :=
  ∀ (tickNs m : Nat) (p : Plan), 0 < tickNs → plan tickNs m = some p →
    (m * 1000000 < 256 * tickNs →
      p.needed = 1 ∧ p.preload + max (m * 1000000 / tickNs) 1 = 256)
    ∧ (256 * tickNs < m * 1000000 →
      2 ≤ p.needed
      ∧ 256 * tickNs * (p.needed - 1) < m * 1000000
      ∧ m * 1000000 ≤ 256 * tickNs * p.needed
      ∧ p.preload + max ((2 * (m * 1000000 - 256 * tickNs * (p.needed - 1)) + tickNs)
          / (2 * tickNs)) 1 = 256)

/-- R103: the exact case; no millisecond count meets it in the reference configuration. -/
def Obligations.PlanExactCase : Prop :=
  (∀ tickNs m : Nat, 0 < tickNs → m * 1000000 = 256 * tickNs →
    plan tickNs m = some { needed := 1, preload := 0 })
  ∧ ∀ m : Nat, m * 1000000 ≠ 256 * 128000

/-- R106: every plan has 1 to 65535 overflows and a byte of preload. -/
def Obligations.PlanBounds : Prop :=
  ∀ (tickNs m : Nat) (p : Plan), 0 < tickNs → plan tickNs m = some p →
    1 ≤ p.needed ∧ p.needed ≤ 65535 ∧ p.preload ≤ 255

/-- R107: the ticks of a plan are within one tick of the wanted number `e / T` (stated times `T`,
so that no division is left), and a whole tick away at `m` = 0 only. -/
def Obligations.PlanWithinOneTick : Prop :=
  ∀ (tickNs m : Nat) (p : Plan), 0 < tickNs → plan tickNs m = some p →
    tickNs * p.totalTicks ≤ m * 1000000 + tickNs
    ∧ m * 1000000 ≤ tickNs * p.totalTicks + tickNs
    ∧ (tickNs * p.totalTicks = m * 1000000 + tickNs → m = 0)
    ∧ (m * 1000000 = tickNs * p.totalTicks + tickNs → m = 0)

/-- R109: the closed forms in the reference configuration. -/
def Obligations.PlanReferenceClosedForms : Prop :=
  (∀ m : Nat, m ≤ 32 →
    plan 128000 m = some { needed := 1, preload := min (256 - 125 * m / 16) 255 })
  ∧ ∀ m : Nat, 33 ≤ m → m ≤ 2147450 →
    plan 128000 m = some {
      needed := (125 * m + 4095) / 4096
      preload := min (256 - (125 * m - 4096 * ((125 * m + 4095) / 4096 - 1) + 8) / 16) 255 }

/-- R148: the duty-cycle arithmetic. -/
def Obligations.DutyTicksSumToPeriod : Prop :=
  ∀ pct : Byte, pct ≤ 100#8 →
    onTicks pct = pct.toNat / 10 ∧ onTicks pct + offTicks pct = 10
    ∧ (pct < 10#8 → onTicks pct = 0) ∧ (pct = 100#8 → offTicks pct = 0)

/-- R118: under the eager schedule (the model's choice where no move is listed, log 1), with `TOV` =
0 and `ISR_CNT` = 0 at entry and the flag Down, a delay that passes its checks returns `OK` after
exactly `TOTAL(m)` ticks, having cleared `TOV` `n` times, with the timer stopped; before that it has
not returned. With the interrupt armed or not. -/
def Obligations.DelayLastsTotalTicks : Prop :=
  ∀ (s : State) (w : CmdWord) (ws : List CmdWord) (ms : Millis) (p : Plan),
    s.seq = [] → s.fault = 0#8 → s.ovfPend = 0#1 → s.agenda = [] →
    s.cmds = w :: ws → decode w = .ok (.delay ms) →
    plan s.params.tickNs ms.toNat = some p → 0 < s.params.tickNs →
    s.flagAt s.tref 0#8 → s.tFlg.getLsbD 0 = false → s.isrCnt = 0#16 →
    ∃ (k : Nat) (t : State), Host.Core.run core k s = .next t
      ∧ t.seq = [] ∧ t.result = 0#8 ∧ ¬ t.timerRunning
      ∧ tickCount k s = p.totalTicks
      ∧ t.evt.count (.regWrite .tFlg 0x00#8)
        = s.evt.count (.regWrite .tFlg 0x00#8) + p.needed
      ∧ ∀ (j : Nat) (u : State), 0 < j → j < k → Host.Core.run core j s = .next u → u.seq ≠ []

/-! ## The step relation (10_state R41) -/

/-- R41: whatever the state, any move can be the next one: with it at the head of the agenda the
step is that move. The agenda is the model's choice (log 1), and so is that the last pulse on
`CB_OUT` is then over (log 4). -/
def Obligations.AnyMoveCanComeNext : Prop :=
  ∀ (s : State) (m : Move) (rest : List Move),
    step { s with agenda := m :: rest } = takeMove m { s with agenda := rest, cbOut := none }

/-- R15, R41: a move of the block whose condition in the table of R41 does not hold cannot happen:
nothing changes, but that a presented word is lost (R80). -/
def Obligations.DisabledMovesDoNothing : Prop :=
  ∀ s : State,
    ((s.seq = [] ∨ s.fault ≠ 0#8 ∨ s.ovfPend ≠ 0#1
        ∨ (∃ cnt rest, s.seq = .dpoll cnt :: rest ∧ s.tFlg.getLsbD 0 = false)) →
      takeMove .seqStep s = .next s)
    ∧ (s.tCtrl &&& 0x07#8 = 0#8 ∨ s.fault ≠ 0#8 ∨ s.ovfPend ≠ 0#1 → takeMove .tick s = .next s)
    ∧ (s.ovfPend = 0#1 ∨ s.fault ≠ 0#8 → takeMove .isr s = .next s)
    ∧ (s.seq ≠ [] ∨ s.fault ≠ 0#8 ∨ s.ovfPend ≠ 0#1 →
      takeMove .present s = .next { s with cmds := s.cmds.tail })

/-- R187: while an overflow interrupt is pending, no move but `Isr` and reset changes the block.
That the move is `Isr` where no move is listed is the model's choice, the eager schedule (log 1). -/
def Obligations.PendingInterruptPreempts : Prop :=
  ∀ s t : State, s.ovfPend = 1#1 → s.fault = 0#8 → step s = .next t →
    (nextMove s ≠ some .isr → nextMove s ≠ some .reset → t.blockPart = s.blockPart)
    ∧ (s.agenda = [] → nextMove s = some .isr)

/-- R33, R182: after a fault the block is busy, and no move but reset changes anything of it. -/
def Obligations.FaultHaltsTheBlock : Prop :=
  ∀ s t : State, s.fault ≠ 0#8 → step s = .next t →
    s.busy = true ∧ (nextMove s ≠ some .reset → t.blockPart = s.blockPart)

/-- 10_state R20 to R35 and R37, 20_memory R63, 60_exceptions R191: outside reset each piece of
state is changed only by the moves and commands that write it. The parameters are the model's field
(log 2), and so is that a pulse on `CB_OUT` stands in the state of one step only (log 4). -/
def Obligations.RegistersHaveTheirWriters : Prop :=
  ∀ s t : State, step s = .next t → nextMove s ≠ some .reset →
    t.params = s.params
    ∧ (t.mem ≠ s.mem → ∃ k v, nextMove s = some (.envWrite k v))
    ∧ (t.tCtrl ≠ s.tCtrl → nextMove s = some .isr ∨ (∃ c, s.sequences (.dpoll c))
        ∨ (∃ pct, s.sequences (.setdc pct .on) ∨ s.sequences (.setdc pct .off))
        ∨ (∃ sel ref, s.presents (.cfgnm sel ref)) ∨ ∃ ms, s.presents (.delay ms))
    ∧ (t.tCnt ≠ s.tCnt → nextMove s = some .tick
        ∨ (∃ pct, s.sequences (.setdc pct .on) ∨ s.sequences (.setdc pct .off))
        ∨ ∃ ms, s.presents (.delay ms))
    ∧ (t.tIen ≠ s.tIen → ∃ sel ref, s.presents (.cfgnm sel ref))
    ∧ (t.tFlg ≠ s.tFlg → nextMove s = some .tick ∨ ∃ c, s.sequences (.dpoll c))
    ∧ (t.ovfPend ≠ s.ovfPend → nextMove s = some .tick ∨ nextMove s = some .isr)
    ∧ (t.ovfNeeded ≠ s.ovfNeeded →
        (∃ pct, s.sequences (.setdc pct .on) ∨ s.sequences (.setdc pct .off))
        ∨ ∃ ms, s.presents (.delay ms))
    ∧ (t.isrCnt ≠ s.isrCnt → nextMove s = some .isr)
    ∧ (t.tref ≠ s.tref → ∃ sel ref, s.presents (.cfgnm sel ref))
    ∧ (t.mref ≠ s.mref → ∃ ref, s.presents (.minit ref))
    ∧ (t.cb ≠ s.cb → (∃ val, s.presents (.setcb val)) ∨ ∃ ref, s.presents (.minit ref))
    ∧ (t.mstop ≠ s.mstop → (nextMove s = some .isr ∧ s.cb = 1#8)
        ∨ (∃ pct, s.sequences (.setdc pct .test)) ∨ s.presents .stop ∨ s.presents .updsf)
    ∧ (t.result ≠ s.result → nextMove s = some .present
        ∨ (nextMove s = some .seqStep ∧ t.seq = []))
    ∧ (t.fault ≠ s.fault → nextMove s = some .isr ∨ (∃ c, s.sequences (.dpoll c))
        ∨ (∃ pct, s.sequences (.setdc pct .test) ∨ s.sequences (.setdc pct .on)
          ∨ s.sequences (.setdc pct .off))
        ∨ (∃ ms, s.presents (.delay ms)) ∨ s.presents .rot)
    ∧ (t.pinDir ≠ s.pinDir → ∃ ref, s.presents (.minit ref))
    ∧ (t.pinOut ≠ s.pinOut →
        (∃ pct, s.sequences (.setdc pct .test) ∨ s.sequences (.setdc pct .low))
        ∨ s.sequences .rotfin ∨ (∃ ref, s.presents (.minit ref))
        ∨ (∃ d, s.presents (.chdir d)) ∨ s.presents .rot ∨ s.presents .stop)
    ∧ (t.seq ≠ s.seq → nextMove s = some .seqStep ∨ ∃ i, s.presents i ∧ blockingCommand i)
    ∧ (t.evt ≠ s.evt → nextMove s = some .present ∨ nextMove s = some .seqStep
        ∨ nextMove s = some .isr)
    ∧ (t.cbOut ≠ none → nextMove s = some .isr ∧ t.cbOut = some s.cb ∧ 1#8 < s.cb)

/-- 10_state R37: the log is append-only but for reset. -/
def Obligations.LogIsAppendOnly : Prop :=
  ∀ s t : State, step s = .next t → nextMove s ≠ some .reset → ∃ es, t.evt = s.evt ++ es

/-! ## Invariants and whole-machine rules -/

/-- Every step keeps the invariant of the block: the legal stacks (10_state R35), the legal values of
the registers (R20 to R33), the counters below their bounds (40_timer_delay R113, 60_exceptions
R186), the timer running only under a waiting delay (70_reset_and_hazards R222), no null reference
under a running command (60_exceptions R190), and both PWM pins low outside the high part of a
period (42_motor_control R155). -/
def Obligations.StepKeepsInvariant : Prop :=
  ∀ s t : State, Inv s → step s = .next t → Inv t

/-- R42, R211: the invariant holds right after reset, for every initial value of the flag cells and
every positive tick. -/
def Obligations.ResetMeetsInvariant : Prop :=
  ∀ (m : Memory) (p : Config.Params) (ws : List CmdWord) (ms : List Move),
    m.wf = true → m.binary = true → 0 < p.tickNs →
    Inv { State.reset with mem := m, params := p, cmds := ws, agenda := ms }

/-- R13, R86, R116, R180: nothing that the host, the environment or the schedule can do ends a run:
from any state that meets the invariant the machine answers a next state for ever. -/
def Obligations.EveryRunGoesOn : Prop :=
  ∀ (k : Nat) (s : State), Inv s → ∃ t : State, Host.Core.run core k s = .next t ∧ Inv t

/-- 42_motor_control R160: the complete list of transitions of `SEQ`, each with its move and its
condition, and the `RESULT` it leaves where it empties the stack; the stack is never deeper than
three frames. No other move changes the stack. -/
def Obligations.SequencerTransitions : Prop :=
  ∀ s t : State, Inv s → step s = .next t → nextMove s ≠ some .reset →
    t.seq.length ≤ 3
    ∧ (nextMove s ≠ some .present → nextMove s ≠ some .seqStep → t.seq = s.seq)
    ∧ (nextMove s = some .present →
      (t.seq = s.seq ∧ (s.acceptEnabled → ∀ i, s.presents i → blockingCommand i →
          t.fault = 1#8 ∨ t.result = 2#8 ∨ t.result = 3#8))
      ∨ (s.acceptEnabled ∧ ∃ ms, s.presents (.delay ms) ∧ s.delayPasses ms.toNat
          ∧ t.seq = [.dpoll 0#16])
      ∨ (s.acceptEnabled ∧ ∃ pct, s.presents (.setdc pct) ∧ pct ≤ 100#8
          ∧ t.seq = [.setdc pct .test])
      ∨ (s.acceptEnabled ∧ s.presents .rot ∧ s.flagAt s.mref 0#8
          ∧ t.seq = [.setdc 50#8 .test, .rotfin]))
    ∧ (nextMove s = some .seqStep →
      (t.seq = s.seq ∧ (s.seqEnabled → t.fault = 1#8))
      ∨ (∃ c rest, s.seq = .dpoll c :: rest ∧ s.flagAt s.tref 0#8 ∧ c + 1#16 < s.ovfNeeded
          ∧ t.seq = .dpoll (c + 1#16) :: rest)
      ∨ (∃ c rest b, s.seq = .dpoll c :: rest ∧ s.flagAt s.tref b
          ∧ (s.ovfNeeded ≤ c + 1#16 ∨ b ≠ 0#8) ∧ t.seq = rest ∧ (rest = [] → t.result = 0#8))
      ∨ (∃ pct rest, s.seq = .setdc pct .test :: rest ∧ s.flagAt s.mref 0#8 ∧ s.mstop = 0#1
          ∧ t.seq = .setdc pct .on :: rest)
      ∨ (∃ pct rest b, s.seq = .setdc pct .test :: rest ∧ s.flagAt s.mref b
          ∧ (s.mstop = 1#1 ∨ b ≠ 0#8) ∧ t.seq = rest ∧ (rest = [] → t.result = 0#8))
      ∨ (∃ pct rest, s.seq = .setdc pct .on :: rest
          ∧ s.delayPasses (pct.toNat / 10 * s.params.pwmTickMs)
          ∧ t.seq = .dpoll 0#16 :: .setdc pct .low :: rest)
      ∨ (∃ pct rest, s.seq = .setdc pct .on :: rest
          ∧ s.delayRefused (pct.toNat / 10 * s.params.pwmTickMs)
          ∧ t.seq = .setdc pct .low :: rest)
      ∨ (∃ pct rest, s.seq = .setdc pct .low :: rest ∧ t.seq = .setdc pct .off :: rest)
      ∨ (∃ pct rest, s.seq = .setdc pct .off :: rest
          ∧ s.delayPasses ((10 - pct.toNat / 10) * s.params.pwmTickMs)
          ∧ t.seq = .dpoll 0#16 :: .setdc pct .test :: rest)
      ∨ (∃ pct rest, s.seq = .setdc pct .off :: rest
          ∧ s.delayRefused ((10 - pct.toNat / 10) * s.params.pwmTickMs)
          ∧ t.seq = .setdc pct .test :: rest)
      ∨ (s.seq = [.rotfin] ∧ t.seq = [] ∧ t.result = 0#8))

/-- 42_motor_control R153: the state machine over motor motion at the accept step: a `SETDC` above
100 percent, and a `ROT` that is refused or that faults, leave the motors stopped like every other
command. -/
def Obligations.MotorStateAtAccept : Prop :=
  ∀ (i : Instr) (s t : State), s.seq = [] → exec i s = .next t →
    (∀ pct : Byte, i = .setdc pct →
      (pct ≤ 100#8 → t.motorState = .driving pct) ∧ (100#8 < pct → t.motorState = .stopped))
    ∧ (i = .rot →
      (s.flagAt s.mref 0#8 → t.motorState = .rotating)
      ∧ (¬ s.flagAt s.mref 0#8 → t.motorState = .stopped))
    ∧ ((∀ pct, i ≠ .setdc pct) → i ≠ .rot → t.motorState = .stopped)

/-- 40_timer_delay R114, 43_sudden_stop R173, R176, 70_reset_and_hazards R237: the step that ends a
blocking command leaves the timer stopped, both PWM pins low, `RESULT` = `OK`, no overflow flag or
interrupt waiting, `Result(0)` as the last event, and `MSTOP` = 0 after a loop or a rotate. -/
def Obligations.EndedCommandLeavesSafeState : Prop :=
  ∀ s t : State, Inv s → step s = .next t → s.seq ≠ [] → t.seq = [] →
    nextMove s ≠ some .reset →
    ¬ t.timerRunning ∧ t.pinOut &&& 0b100100#6 = 0#6 ∧ t.result = 0#8
    ∧ t.tFlg = 0x00#8 ∧ t.ovfPend = 0#1
    ∧ t.evt.getLast? = some (.result 0#8)
    ∧ ((∀ c, s.seq ≠ [.dpoll c]) → t.mstop = 0#1)

/-- 43_sudden_stop R174: once a command has returned nothing but an accepted command starts the timer
or raises a PWM pin. -/
def Obligations.NoRestartWithoutCommand : Prop :=
  ∀ s t : State, Inv s → s.seq = [] → step s = .next t →
    (nextMove s ≠ some .present → t.seq = [])
    ∧ (t.seq = [] → ¬ t.timerRunning ∧ t.pinOut &&& 0b100100#6 = 0#6)

/-- 42_motor_control R159, 43_sudden_stop R177: with the flag Up behind both references a loop that
has reached `S_LOW` returns in three steps of the eager schedule (the model's choice, log 1), both
PWM pins low, `MSTOP` = 0, the timer registers unwritten, and `RESULT` = `OK` where the loop is the
host's command. -/
def Obligations.CancelledLoopReturns : Prop :=
  ∀ (s : State) (pct : Byte) (rest : List Frame) (b c : Byte),
    s.seq = .setdc pct .low :: rest → s.fault = 0#8 → s.ovfPend = 0#1 → s.agenda = [] →
    s.flagAt s.tref b → b ≠ 0#8 → s.flagAt s.mref c → c ≠ 0#8 →
    ∃ t : State, Host.Core.run core 3 s = .next t
      ∧ t.seq = rest ∧ t.pinOut = s.pinOut &&& 0b011011#6 ∧ t.mstop = 0#1
      ∧ t.tCtrl = s.tCtrl ∧ t.tCnt = s.tCnt ∧ t.ovfNeeded = s.ovfNeeded
      ∧ t.mem = s.mem ∧ t.fault = 0#8
      ∧ (rest = [] → t.result = 0#8)

/-- 70_reset_and_hazards R224: the interrupt stops the timer, the flag drops before the poll step
reads it, and the poll loop hangs: a state of the block in which none of its moves is enabled. The
agenda that lists these moves is the model's choice (log 1). -/
def Obligations.ShortFlagPulseHangsTheDelay : Prop :=
  ∀ (s : State) (k : Fin 2) (c : Count) (rest : List Frame),
    Inv s → s.seq = .dpoll c :: rest → s.fault = 0#8 → s.ovfPend = 1#1 → s.tFlg = 0x01#8 →
    s.tref.toNat = k.val + 1 → s.mem.read k.val = some 1#8 → c + 1#16 < s.ovfNeeded →
    s.agenda = [.isr, .envWrite k 0#1, .seqStep] →
    ∃ t : State, Host.Core.run core 3 s = .next t ∧ t.hung
      ∧ t.seq = .dpoll (c + 1#16) :: rest ∧ t.busy = true

/-- 70_reset_and_hazards R224: only reset leaves a hang: whatever else comes, flag writes and
presented words included, the block stays as it is. The agenda is the model's choice (log 1). -/
def Obligations.OnlyResetLeavesAHang : Prop :=
  ∀ (k : Nat) (s t : State), s.hung → .reset ∉ s.agenda → Host.Core.run core k s = .next t →
    t.hung ∧ t.blockPart = s.blockPart
end

