-- ==== Sys2Proof/Laws/Memory.lean ====
section
/-! SUPPORT. The flag space (spec/20_memory.md R62, R63): a read after a write, the frame of a write,
and that a write keeps the canonical form and the Down-or-Up values. -/

namespace Sys2Proof.Machine

/-- The canonical form from an address upward holds from any lower address. -/
theorem Memory.wfFrom_mono {m : Memory} {lo hi : Nat} (h : lo ≤ hi) (w : Memory.wfFrom hi m = true) :
    Memory.wfFrom lo m = true := by
  cases m with
  | nil => rfl
  | cons c rest =>
    simp only [Memory.wfFrom, Bool.and_eq_true, decide_eq_true_eq] at w ⊢
    exact ⟨⟨⟨by omega, w.1.1.2⟩, w.1.2⟩, w.2⟩

/-- Below its first address a canonical list reads as unlisted. -/
theorem Memory.lookup_below {m : Memory} {lo k : Nat} (w : Memory.wfFrom lo m = true) (h : k < lo) :
    m.lookup k = unlistedByte := by
  induction m generalizing lo with
  | nil => rfl
  | cons c rest ih =>
    simp only [Memory.wfFrom, Bool.and_eq_true, decide_eq_true_eq] at w
    have : c.1 ≠ k := by omega
    simp only [Memory.lookup, this, if_false]
    exact ih w.2 (by omega)

theorem Memory.entry_wfFrom {k : Nat} {v : Byte} {rest : Memory} {lo : Nat} (h : lo ≤ k)
    (hk : k < Config.nFlagCells) (w : Memory.wfFrom (k + 1) rest = true) :
    Memory.wfFrom lo (Memory.entry k v rest) = true := by
  unfold Memory.entry
  split
  · exact Memory.wfFrom_mono (by omega) w
  · rename_i hv
    simp [Memory.wfFrom, h, hk, hv, w]

/-- A write of an existing cell keeps the canonical form. -/
theorem Memory.write_wfFrom {m : Memory} {k : Nat} {v : Byte} {lo : Nat} (h : lo ≤ k)
    (hk : k < Config.nFlagCells) (w : Memory.wfFrom lo m = true) :
    Memory.wfFrom lo (m.write k v) = true := by
  induction m generalizing lo with
  | nil => exact Memory.entry_wfFrom h hk rfl
  | cons c rest ih =>
    obtain ⟨a, b⟩ := c
    have w' := w
    simp only [Memory.wfFrom, Bool.and_eq_true, decide_eq_true_eq] at w
    simp only [Memory.write]
    split
    · apply Memory.entry_wfFrom h hk
      simp only [Memory.wfFrom, Bool.and_eq_true, decide_eq_true_eq]
      exact ⟨⟨⟨by omega, w.1.1.2⟩, w.1.2⟩, w.2⟩
    · split
      · rename_i e
        subst e
        exact Memory.entry_wfFrom h hk w.2
      · simp only [Memory.wfFrom, Bool.and_eq_true, decide_eq_true_eq]
        exact ⟨w.1, ih (by omega) w.2⟩

/-- `Memory.write_wfFrom` for the whole flag space. -/
theorem Memory.write_wf {m : Memory} {k : Nat} {v : Byte} (hk : k < Config.nFlagCells)
    (w : m.wf = true) : (m.write k v).wf = true :=
  Memory.write_wfFrom (Nat.zero_le k) hk w

theorem Memory.entry_binary {k : Nat} {v : Byte} {rest : Memory} (hv : v = 0#8 ∨ v = 1#8)
    (w : rest.binary = true) : (Memory.entry k v rest).binary = true := by
  unfold Memory.entry
  split
  · exact w
  · simp only [Memory.binary, List.all_cons, Bool.and_eq_true, decide_eq_true_eq]
    exact ⟨hv, w⟩

/-- A write of Down or Up keeps every cell Down or Up. -/
theorem Memory.write_binary {m : Memory} {k : Nat} {v : Byte} (hv : v = 0#8 ∨ v = 1#8)
    (w : m.binary = true) : (m.write k v).binary = true := by
  induction m with
  | nil => exact Memory.entry_binary hv w
  | cons c rest ih =>
    obtain ⟨a, b⟩ := c
    have w' := w
    simp only [Memory.binary, List.all_cons, Bool.and_eq_true] at w
    simp only [Memory.write]
    split
    · exact Memory.entry_binary hv w'
    · split
      · exact Memory.entry_binary hv w.2
      · simp only [Memory.binary, List.all_cons, Bool.and_eq_true]
        exact ⟨w.1, ih w.2⟩

theorem Memory.lookup_entry_same {k : Nat} {v : Byte} {rest : Memory}
    (w : Memory.wfFrom (k + 1) rest = true) : (Memory.entry k v rest).lookup k = v := by
  unfold Memory.entry
  split
  · rename_i e
    rw [e]
    exact Memory.lookup_below w (by omega)
  · simp [Memory.lookup]

theorem Memory.lookup_entry_other {k j : Nat} {v : Byte} {rest : Memory} (h : j ≠ k) :
    (Memory.entry k v rest).lookup j = rest.lookup j := by
  unfold Memory.entry
  split
  · rfl
  · have : k ≠ j := fun e => h e.symm
    simp [Memory.lookup, this]

/-- A read after a write of the same cell gives the byte written. -/
theorem Memory.lookup_write_same {m : Memory} {k : Nat} {v : Byte} {lo : Nat}
    (w : Memory.wfFrom lo m = true) : (m.write k v).lookup k = v := by
  induction m generalizing lo with
  | nil => exact Memory.lookup_entry_same rfl
  | cons c rest ih =>
    obtain ⟨a, b⟩ := c
    have w' := w
    simp only [Memory.wfFrom, Bool.and_eq_true, decide_eq_true_eq] at w
    simp only [Memory.write]
    split
    · apply Memory.lookup_entry_same
      simp only [Memory.wfFrom, Bool.and_eq_true, decide_eq_true_eq]
      exact ⟨⟨⟨by omega, w.1.1.2⟩, w.1.2⟩, w.2⟩
    · split
      · rename_i e
        subst e
        exact Memory.lookup_entry_same w.2
      · rename_i ne
        have : a ≠ k := fun e => ne e.symm
        simp only [Memory.lookup, this, if_false]
        exact ih w.2

/-- A write leaves every other cell alone. -/
theorem Memory.lookup_write_other {m : Memory} {k j : Nat} {v : Byte} (h : j ≠ k) :
    (m.write k v).lookup j = m.lookup j := by
  induction m with
  | nil => exact Memory.lookup_entry_other h
  | cons c rest ih =>
    obtain ⟨a, b⟩ := c
    simp only [Memory.write]
    split
    · exact Memory.lookup_entry_other h
    · split
      · rename_i e
        subst e
        rw [Memory.lookup_entry_other h]
        have : k ≠ j := fun e => h e.symm
        simp [Memory.lookup, this]
      · simp only [Memory.lookup, ih]

/-- Every byte of a Down-or-Up flag space reads as 0 or 1. -/
theorem Memory.lookup_binary {m : Memory} (w : m.binary = true) (k : Nat) :
    m.lookup k = 0#8 ∨ m.lookup k = 1#8 := by
  induction m with
  | nil => exact .inl rfl
  | cons c rest ih =>
    obtain ⟨a, b⟩ := c
    simp only [Memory.binary, List.all_cons, Bool.and_eq_true, decide_eq_true_eq] at w
    simp only [Memory.lookup]
    split
    · exact w.1
    · exact ih w.2

/-- The two cells exist and no other does. -/
theorem Memory.read_of_lt {m : Memory} {k : Nat} (h : k < Config.nFlagCells) :
    m.read k = some (m.lookup k) := by
  simp [Memory.read, h]

/-- A level is stored as 0 or 1. -/
theorem levelByte_binary (v : BitVec 1) : levelByte v = 0#8 ∨ levelByte v = 1#8 := by
  revert v; decide

end Sys2Proof.Machine
end

