-- ==== Sys2Proof/Laws/State.lean ====
section
/-! SUPPORT. One lemma per field for every unconditional update of the state, so that no later proof
unfolds a record update. -/

namespace Sys2Proof.Machine

variable (s : State)

@[simp] theorem State.emit_tCtrl (e : Event) : (s.emit e).tCtrl = s.tCtrl := rfl
@[simp] theorem State.emit_tCnt (e : Event) : (s.emit e).tCnt = s.tCnt := rfl
@[simp] theorem State.emit_tIen (e : Event) : (s.emit e).tIen = s.tIen := rfl
@[simp] theorem State.emit_tFlg (e : Event) : (s.emit e).tFlg = s.tFlg := rfl
@[simp] theorem State.emit_ovfPend (e : Event) : (s.emit e).ovfPend = s.ovfPend := rfl
@[simp] theorem State.emit_ovfNeeded (e : Event) : (s.emit e).ovfNeeded = s.ovfNeeded := rfl
@[simp] theorem State.emit_isrCnt (e : Event) : (s.emit e).isrCnt = s.isrCnt := rfl
@[simp] theorem State.emit_tref (e : Event) : (s.emit e).tref = s.tref := rfl
@[simp] theorem State.emit_mref (e : Event) : (s.emit e).mref = s.mref := rfl
@[simp] theorem State.emit_cb (e : Event) : (s.emit e).cb = s.cb := rfl
@[simp] theorem State.emit_mstop (e : Event) : (s.emit e).mstop = s.mstop := rfl
@[simp] theorem State.emit_result (e : Event) : (s.emit e).result = s.result := rfl
@[simp] theorem State.emit_fault (e : Event) : (s.emit e).fault = s.fault := rfl
@[simp] theorem State.emit_pinDir (e : Event) : (s.emit e).pinDir = s.pinDir := rfl
@[simp] theorem State.emit_pinOut (e : Event) : (s.emit e).pinOut = s.pinOut := rfl
@[simp] theorem State.emit_seq (e : Event) : (s.emit e).seq = s.seq := rfl
@[simp] theorem State.emit_evt (e : Event) : (s.emit e).evt = s.evt ++ [e] := rfl
@[simp] theorem State.emit_cbOut (e : Event) : (s.emit e).cbOut = s.cbOut := rfl
@[simp] theorem State.emit_mem (e : Event) : (s.emit e).mem = s.mem := rfl
@[simp] theorem State.emit_params (e : Event) : (s.emit e).params = s.params := rfl
@[simp] theorem State.emit_cmds (e : Event) : (s.emit e).cmds = s.cmds := rfl
@[simp] theorem State.emit_agenda (e : Event) : (s.emit e).agenda = s.agenda := rfl

@[simp] theorem State.writeTCtrl_tCtrl (v : Byte) : (s.writeTCtrl v).tCtrl = v := rfl
@[simp] theorem State.writeTCtrl_tCnt (v : Byte) : (s.writeTCtrl v).tCnt = s.tCnt := rfl
@[simp] theorem State.writeTCtrl_tIen (v : Byte) : (s.writeTCtrl v).tIen = s.tIen := rfl
@[simp] theorem State.writeTCtrl_tFlg (v : Byte) : (s.writeTCtrl v).tFlg = s.tFlg := rfl
@[simp] theorem State.writeTCtrl_ovfPend (v : Byte) : (s.writeTCtrl v).ovfPend = s.ovfPend := rfl
@[simp] theorem State.writeTCtrl_ovfNeeded (v : Byte) : (s.writeTCtrl v).ovfNeeded = s.ovfNeeded := rfl
@[simp] theorem State.writeTCtrl_isrCnt (v : Byte) : (s.writeTCtrl v).isrCnt = s.isrCnt := rfl
@[simp] theorem State.writeTCtrl_tref (v : Byte) : (s.writeTCtrl v).tref = s.tref := rfl
@[simp] theorem State.writeTCtrl_mref (v : Byte) : (s.writeTCtrl v).mref = s.mref := rfl
@[simp] theorem State.writeTCtrl_cb (v : Byte) : (s.writeTCtrl v).cb = s.cb := rfl
@[simp] theorem State.writeTCtrl_mstop (v : Byte) : (s.writeTCtrl v).mstop = s.mstop := rfl
@[simp] theorem State.writeTCtrl_result (v : Byte) : (s.writeTCtrl v).result = s.result := rfl
@[simp] theorem State.writeTCtrl_fault (v : Byte) : (s.writeTCtrl v).fault = s.fault := rfl
@[simp] theorem State.writeTCtrl_pinDir (v : Byte) : (s.writeTCtrl v).pinDir = s.pinDir := rfl
@[simp] theorem State.writeTCtrl_pinOut (v : Byte) : (s.writeTCtrl v).pinOut = s.pinOut := rfl
@[simp] theorem State.writeTCtrl_seq (v : Byte) : (s.writeTCtrl v).seq = s.seq := rfl
@[simp] theorem State.writeTCtrl_evt (v : Byte) :
    (s.writeTCtrl v).evt = s.evt ++ [.regWrite .tCtrl v] := rfl
@[simp] theorem State.writeTCtrl_cbOut (v : Byte) : (s.writeTCtrl v).cbOut = s.cbOut := rfl
@[simp] theorem State.writeTCtrl_mem (v : Byte) : (s.writeTCtrl v).mem = s.mem := rfl
@[simp] theorem State.writeTCtrl_params (v : Byte) : (s.writeTCtrl v).params = s.params := rfl
@[simp] theorem State.writeTCtrl_cmds (v : Byte) : (s.writeTCtrl v).cmds = s.cmds := rfl
@[simp] theorem State.writeTCtrl_agenda (v : Byte) : (s.writeTCtrl v).agenda = s.agenda := rfl

@[simp] theorem State.writeTCnt_tCtrl (v : Byte) : (s.writeTCnt v).tCtrl = s.tCtrl := rfl
@[simp] theorem State.writeTCnt_tCnt (v : Byte) : (s.writeTCnt v).tCnt = v := rfl
@[simp] theorem State.writeTCnt_tIen (v : Byte) : (s.writeTCnt v).tIen = s.tIen := rfl
@[simp] theorem State.writeTCnt_tFlg (v : Byte) : (s.writeTCnt v).tFlg = s.tFlg := rfl
@[simp] theorem State.writeTCnt_ovfPend (v : Byte) : (s.writeTCnt v).ovfPend = s.ovfPend := rfl
@[simp] theorem State.writeTCnt_ovfNeeded (v : Byte) : (s.writeTCnt v).ovfNeeded = s.ovfNeeded := rfl
@[simp] theorem State.writeTCnt_isrCnt (v : Byte) : (s.writeTCnt v).isrCnt = s.isrCnt := rfl
@[simp] theorem State.writeTCnt_tref (v : Byte) : (s.writeTCnt v).tref = s.tref := rfl
@[simp] theorem State.writeTCnt_mref (v : Byte) : (s.writeTCnt v).mref = s.mref := rfl
@[simp] theorem State.writeTCnt_cb (v : Byte) : (s.writeTCnt v).cb = s.cb := rfl
@[simp] theorem State.writeTCnt_mstop (v : Byte) : (s.writeTCnt v).mstop = s.mstop := rfl
@[simp] theorem State.writeTCnt_result (v : Byte) : (s.writeTCnt v).result = s.result := rfl
@[simp] theorem State.writeTCnt_fault (v : Byte) : (s.writeTCnt v).fault = s.fault := rfl
@[simp] theorem State.writeTCnt_pinDir (v : Byte) : (s.writeTCnt v).pinDir = s.pinDir := rfl
@[simp] theorem State.writeTCnt_pinOut (v : Byte) : (s.writeTCnt v).pinOut = s.pinOut := rfl
@[simp] theorem State.writeTCnt_seq (v : Byte) : (s.writeTCnt v).seq = s.seq := rfl
@[simp] theorem State.writeTCnt_evt (v : Byte) :
    (s.writeTCnt v).evt = s.evt ++ [.regWrite .tCnt v] := rfl
@[simp] theorem State.writeTCnt_cbOut (v : Byte) : (s.writeTCnt v).cbOut = s.cbOut := rfl
@[simp] theorem State.writeTCnt_mem (v : Byte) : (s.writeTCnt v).mem = s.mem := rfl
@[simp] theorem State.writeTCnt_params (v : Byte) : (s.writeTCnt v).params = s.params := rfl
@[simp] theorem State.writeTCnt_cmds (v : Byte) : (s.writeTCnt v).cmds = s.cmds := rfl
@[simp] theorem State.writeTCnt_agenda (v : Byte) : (s.writeTCnt v).agenda = s.agenda := rfl

@[simp] theorem State.stopTimer_tCtrl : s.stopTimer.tCtrl = setCs s.tCtrl 0#3 := rfl
@[simp] theorem State.stopTimer_tCnt : s.stopTimer.tCnt = s.tCnt := rfl
@[simp] theorem State.stopTimer_tIen : s.stopTimer.tIen = s.tIen := rfl
@[simp] theorem State.stopTimer_tFlg : s.stopTimer.tFlg = s.tFlg := rfl
@[simp] theorem State.stopTimer_ovfPend : s.stopTimer.ovfPend = s.ovfPend := rfl
@[simp] theorem State.stopTimer_ovfNeeded : s.stopTimer.ovfNeeded = s.ovfNeeded := rfl
@[simp] theorem State.stopTimer_isrCnt : s.stopTimer.isrCnt = s.isrCnt := rfl
@[simp] theorem State.stopTimer_tref : s.stopTimer.tref = s.tref := rfl
@[simp] theorem State.stopTimer_mref : s.stopTimer.mref = s.mref := rfl
@[simp] theorem State.stopTimer_cb : s.stopTimer.cb = s.cb := rfl
@[simp] theorem State.stopTimer_mstop : s.stopTimer.mstop = s.mstop := rfl
@[simp] theorem State.stopTimer_result : s.stopTimer.result = s.result := rfl
@[simp] theorem State.stopTimer_fault : s.stopTimer.fault = s.fault := rfl
@[simp] theorem State.stopTimer_pinDir : s.stopTimer.pinDir = s.pinDir := rfl
@[simp] theorem State.stopTimer_pinOut : s.stopTimer.pinOut = s.pinOut := rfl
@[simp] theorem State.stopTimer_seq : s.stopTimer.seq = s.seq := rfl
@[simp] theorem State.stopTimer_evt :
    s.stopTimer.evt = s.evt ++ [.regWrite .tCtrl (setCs s.tCtrl 0#3)] := rfl
@[simp] theorem State.stopTimer_cbOut : s.stopTimer.cbOut = s.cbOut := rfl
@[simp] theorem State.stopTimer_mem : s.stopTimer.mem = s.mem := rfl
@[simp] theorem State.stopTimer_params : s.stopTimer.params = s.params := rfl
@[simp] theorem State.stopTimer_cmds : s.stopTimer.cmds = s.cmds := rfl
@[simp] theorem State.stopTimer_agenda : s.stopTimer.agenda = s.agenda := rfl

@[simp] theorem State.writePinOut_tCtrl (v : Pins) : (s.writePinOut v).tCtrl = s.tCtrl := rfl
@[simp] theorem State.writePinOut_tCnt (v : Pins) : (s.writePinOut v).tCnt = s.tCnt := rfl
@[simp] theorem State.writePinOut_tIen (v : Pins) : (s.writePinOut v).tIen = s.tIen := rfl
@[simp] theorem State.writePinOut_tFlg (v : Pins) : (s.writePinOut v).tFlg = s.tFlg := rfl
@[simp] theorem State.writePinOut_ovfPend (v : Pins) : (s.writePinOut v).ovfPend = s.ovfPend := rfl
@[simp] theorem State.writePinOut_ovfNeeded (v : Pins) : (s.writePinOut v).ovfNeeded = s.ovfNeeded := rfl
@[simp] theorem State.writePinOut_isrCnt (v : Pins) : (s.writePinOut v).isrCnt = s.isrCnt := rfl
@[simp] theorem State.writePinOut_tref (v : Pins) : (s.writePinOut v).tref = s.tref := rfl
@[simp] theorem State.writePinOut_mref (v : Pins) : (s.writePinOut v).mref = s.mref := rfl
@[simp] theorem State.writePinOut_cb (v : Pins) : (s.writePinOut v).cb = s.cb := rfl
@[simp] theorem State.writePinOut_mstop (v : Pins) : (s.writePinOut v).mstop = s.mstop := rfl
@[simp] theorem State.writePinOut_result (v : Pins) : (s.writePinOut v).result = s.result := rfl
@[simp] theorem State.writePinOut_fault (v : Pins) : (s.writePinOut v).fault = s.fault := rfl
@[simp] theorem State.writePinOut_pinDir (v : Pins) : (s.writePinOut v).pinDir = s.pinDir := rfl
@[simp] theorem State.writePinOut_pinOut (v : Pins) : (s.writePinOut v).pinOut = v := rfl
@[simp] theorem State.writePinOut_seq (v : Pins) : (s.writePinOut v).seq = s.seq := rfl
@[simp] theorem State.writePinOut_evt (v : Pins) :
    (s.writePinOut v).evt = s.evt ++ [.pinWrite s.pinDir v] := rfl
@[simp] theorem State.writePinOut_cbOut (v : Pins) : (s.writePinOut v).cbOut = s.cbOut := rfl
@[simp] theorem State.writePinOut_mem (v : Pins) : (s.writePinOut v).mem = s.mem := rfl
@[simp] theorem State.writePinOut_params (v : Pins) : (s.writePinOut v).params = s.params := rfl
@[simp] theorem State.writePinOut_cmds (v : Pins) : (s.writePinOut v).cmds = s.cmds := rfl
@[simp] theorem State.writePinOut_agenda (v : Pins) : (s.writePinOut v).agenda = s.agenda := rfl

@[simp] theorem State.push_tCtrl (f : Frame) : (s.push f).tCtrl = s.tCtrl := rfl
@[simp] theorem State.push_tCnt (f : Frame) : (s.push f).tCnt = s.tCnt := rfl
@[simp] theorem State.push_tIen (f : Frame) : (s.push f).tIen = s.tIen := rfl
@[simp] theorem State.push_tFlg (f : Frame) : (s.push f).tFlg = s.tFlg := rfl
@[simp] theorem State.push_ovfPend (f : Frame) : (s.push f).ovfPend = s.ovfPend := rfl
@[simp] theorem State.push_ovfNeeded (f : Frame) : (s.push f).ovfNeeded = s.ovfNeeded := rfl
@[simp] theorem State.push_isrCnt (f : Frame) : (s.push f).isrCnt = s.isrCnt := rfl
@[simp] theorem State.push_tref (f : Frame) : (s.push f).tref = s.tref := rfl
@[simp] theorem State.push_mref (f : Frame) : (s.push f).mref = s.mref := rfl
@[simp] theorem State.push_cb (f : Frame) : (s.push f).cb = s.cb := rfl
@[simp] theorem State.push_mstop (f : Frame) : (s.push f).mstop = s.mstop := rfl
@[simp] theorem State.push_result (f : Frame) : (s.push f).result = s.result := rfl
@[simp] theorem State.push_fault (f : Frame) : (s.push f).fault = s.fault := rfl
@[simp] theorem State.push_pinDir (f : Frame) : (s.push f).pinDir = s.pinDir := rfl
@[simp] theorem State.push_pinOut (f : Frame) : (s.push f).pinOut = s.pinOut := rfl
@[simp] theorem State.push_seq (f : Frame) : (s.push f).seq = f :: s.seq := rfl
@[simp] theorem State.push_evt (f : Frame) : (s.push f).evt = s.evt := rfl
@[simp] theorem State.push_cbOut (f : Frame) : (s.push f).cbOut = s.cbOut := rfl
@[simp] theorem State.push_mem (f : Frame) : (s.push f).mem = s.mem := rfl
@[simp] theorem State.push_params (f : Frame) : (s.push f).params = s.params := rfl
@[simp] theorem State.push_cmds (f : Frame) : (s.push f).cmds = s.cmds := rfl
@[simp] theorem State.push_agenda (f : Frame) : (s.push f).agenda = s.agenda := rfl

@[simp] theorem State.complete_tCtrl (c : ResultCode) : (s.complete c).tCtrl = s.tCtrl := rfl
@[simp] theorem State.complete_tCnt (c : ResultCode) : (s.complete c).tCnt = s.tCnt := rfl
@[simp] theorem State.complete_tIen (c : ResultCode) : (s.complete c).tIen = s.tIen := rfl
@[simp] theorem State.complete_tFlg (c : ResultCode) : (s.complete c).tFlg = s.tFlg := rfl
@[simp] theorem State.complete_ovfPend (c : ResultCode) : (s.complete c).ovfPend = s.ovfPend := rfl
@[simp] theorem State.complete_ovfNeeded (c : ResultCode) : (s.complete c).ovfNeeded = s.ovfNeeded := rfl
@[simp] theorem State.complete_isrCnt (c : ResultCode) : (s.complete c).isrCnt = s.isrCnt := rfl
@[simp] theorem State.complete_tref (c : ResultCode) : (s.complete c).tref = s.tref := rfl
@[simp] theorem State.complete_mref (c : ResultCode) : (s.complete c).mref = s.mref := rfl
@[simp] theorem State.complete_cb (c : ResultCode) : (s.complete c).cb = s.cb := rfl
@[simp] theorem State.complete_mstop (c : ResultCode) : (s.complete c).mstop = s.mstop := rfl
@[simp] theorem State.complete_result (c : ResultCode) : (s.complete c).result = c.value := rfl
@[simp] theorem State.complete_fault (c : ResultCode) : (s.complete c).fault = s.fault := rfl
@[simp] theorem State.complete_pinDir (c : ResultCode) : (s.complete c).pinDir = s.pinDir := rfl
@[simp] theorem State.complete_pinOut (c : ResultCode) : (s.complete c).pinOut = s.pinOut := rfl
@[simp] theorem State.complete_seq (c : ResultCode) : (s.complete c).seq = s.seq := rfl
@[simp] theorem State.complete_evt (c : ResultCode) :
    (s.complete c).evt = s.evt ++ [.result c.value] := rfl
@[simp] theorem State.complete_cbOut (c : ResultCode) : (s.complete c).cbOut = s.cbOut := rfl
@[simp] theorem State.complete_mem (c : ResultCode) : (s.complete c).mem = s.mem := rfl
@[simp] theorem State.complete_params (c : ResultCode) : (s.complete c).params = s.params := rfl
@[simp] theorem State.complete_cmds (c : ResultCode) : (s.complete c).cmds = s.cmds := rfl
@[simp] theorem State.complete_agenda (c : ResultCode) : (s.complete c).agenda = s.agenda := rfl

@[simp] theorem State.updateStopFlag_tCtrl : s.updateStopFlag.tCtrl = s.tCtrl := rfl
@[simp] theorem State.updateStopFlag_tCnt : s.updateStopFlag.tCnt = s.tCnt := rfl
@[simp] theorem State.updateStopFlag_tIen : s.updateStopFlag.tIen = s.tIen := rfl
@[simp] theorem State.updateStopFlag_tFlg : s.updateStopFlag.tFlg = s.tFlg := rfl
@[simp] theorem State.updateStopFlag_ovfPend : s.updateStopFlag.ovfPend = s.ovfPend := rfl
@[simp] theorem State.updateStopFlag_ovfNeeded : s.updateStopFlag.ovfNeeded = s.ovfNeeded := rfl
@[simp] theorem State.updateStopFlag_isrCnt : s.updateStopFlag.isrCnt = s.isrCnt := rfl
@[simp] theorem State.updateStopFlag_tref : s.updateStopFlag.tref = s.tref := rfl
@[simp] theorem State.updateStopFlag_mref : s.updateStopFlag.mref = s.mref := rfl
@[simp] theorem State.updateStopFlag_cb : s.updateStopFlag.cb = s.cb := rfl
@[simp] theorem State.updateStopFlag_mstop : s.updateStopFlag.mstop = 1#1 := rfl
@[simp] theorem State.updateStopFlag_result : s.updateStopFlag.result = s.result := rfl
@[simp] theorem State.updateStopFlag_fault : s.updateStopFlag.fault = s.fault := rfl
@[simp] theorem State.updateStopFlag_pinDir : s.updateStopFlag.pinDir = s.pinDir := rfl
@[simp] theorem State.updateStopFlag_pinOut : s.updateStopFlag.pinOut = s.pinOut := rfl
@[simp] theorem State.updateStopFlag_seq : s.updateStopFlag.seq = s.seq := rfl
@[simp] theorem State.updateStopFlag_evt : s.updateStopFlag.evt = s.evt := rfl
@[simp] theorem State.updateStopFlag_cbOut : s.updateStopFlag.cbOut = s.cbOut := rfl
@[simp] theorem State.updateStopFlag_mem : s.updateStopFlag.mem = s.mem := rfl
@[simp] theorem State.updateStopFlag_params : s.updateStopFlag.params = s.params := rfl
@[simp] theorem State.updateStopFlag_cmds : s.updateStopFlag.cmds = s.cmds := rfl
@[simp] theorem State.updateStopFlag_agenda : s.updateStopFlag.agenda = s.agenda := rfl

@[simp] theorem State.toggleDir_tCtrl (d : MotorSide) : (s.toggleDir d).tCtrl = s.tCtrl := rfl
@[simp] theorem State.toggleDir_tCnt (d : MotorSide) : (s.toggleDir d).tCnt = s.tCnt := rfl
@[simp] theorem State.toggleDir_tIen (d : MotorSide) : (s.toggleDir d).tIen = s.tIen := rfl
@[simp] theorem State.toggleDir_tFlg (d : MotorSide) : (s.toggleDir d).tFlg = s.tFlg := rfl
@[simp] theorem State.toggleDir_ovfPend (d : MotorSide) : (s.toggleDir d).ovfPend = s.ovfPend := rfl
@[simp] theorem State.toggleDir_ovfNeeded (d : MotorSide) :
    (s.toggleDir d).ovfNeeded = s.ovfNeeded := rfl
@[simp] theorem State.toggleDir_isrCnt (d : MotorSide) : (s.toggleDir d).isrCnt = s.isrCnt := rfl
@[simp] theorem State.toggleDir_tref (d : MotorSide) : (s.toggleDir d).tref = s.tref := rfl
@[simp] theorem State.toggleDir_mref (d : MotorSide) : (s.toggleDir d).mref = s.mref := rfl
@[simp] theorem State.toggleDir_cb (d : MotorSide) : (s.toggleDir d).cb = s.cb := rfl
@[simp] theorem State.toggleDir_mstop (d : MotorSide) : (s.toggleDir d).mstop = s.mstop := rfl
@[simp] theorem State.toggleDir_result (d : MotorSide) : (s.toggleDir d).result = s.result := rfl
@[simp] theorem State.toggleDir_fault (d : MotorSide) : (s.toggleDir d).fault = s.fault := rfl
@[simp] theorem State.toggleDir_pinDir (d : MotorSide) : (s.toggleDir d).pinDir = s.pinDir := rfl
@[simp] theorem State.toggleDir_pinOut (d : MotorSide) :
    (s.toggleDir d).pinOut = s.pinOut ^^^ enMask d := rfl
@[simp] theorem State.toggleDir_seq (d : MotorSide) : (s.toggleDir d).seq = s.seq := rfl
@[simp] theorem State.toggleDir_evt (d : MotorSide) :
    (s.toggleDir d).evt = s.evt ++ [.pinWrite s.pinDir (s.pinOut ^^^ enMask d)] := rfl
@[simp] theorem State.toggleDir_cbOut (d : MotorSide) : (s.toggleDir d).cbOut = s.cbOut := rfl
@[simp] theorem State.toggleDir_mem (d : MotorSide) : (s.toggleDir d).mem = s.mem := rfl
@[simp] theorem State.toggleDir_params (d : MotorSide) : (s.toggleDir d).params = s.params := rfl
@[simp] theorem State.toggleDir_cmds (d : MotorSide) : (s.toggleDir d).cmds = s.cmds := rfl
@[simp] theorem State.toggleDir_agenda (d : MotorSide) : (s.toggleDir d).agenda = s.agenda := rfl

@[simp] theorem State.configure_tCtrl (sel : Byte) (ref : FlagRef) :
    (s.configure sel ref).tCtrl = setMode s.tCtrl 0#1 := rfl
@[simp] theorem State.configure_tCnt (sel : Byte) (ref : FlagRef) :
    (s.configure sel ref).tCnt = s.tCnt := rfl
@[simp] theorem State.configure_tIen (sel : Byte) (ref : FlagRef) :
    (s.configure sel ref).tIen = setToie s.tIen (selectorBit sel) := rfl
@[simp] theorem State.configure_tFlg (sel : Byte) (ref : FlagRef) :
    (s.configure sel ref).tFlg = s.tFlg := rfl
@[simp] theorem State.configure_ovfPend (sel : Byte) (ref : FlagRef) :
    (s.configure sel ref).ovfPend = s.ovfPend := rfl
@[simp] theorem State.configure_ovfNeeded (sel : Byte) (ref : FlagRef) :
    (s.configure sel ref).ovfNeeded = s.ovfNeeded := rfl
@[simp] theorem State.configure_isrCnt (sel : Byte) (ref : FlagRef) :
    (s.configure sel ref).isrCnt = s.isrCnt := rfl
@[simp] theorem State.configure_tref (sel : Byte) (ref : FlagRef) :
    (s.configure sel ref).tref = ref := rfl
@[simp] theorem State.configure_mref (sel : Byte) (ref : FlagRef) :
    (s.configure sel ref).mref = s.mref := rfl
@[simp] theorem State.configure_cb (sel : Byte) (ref : FlagRef) : (s.configure sel ref).cb = s.cb := rfl
@[simp] theorem State.configure_mstop (sel : Byte) (ref : FlagRef) :
    (s.configure sel ref).mstop = s.mstop := rfl
@[simp] theorem State.configure_result (sel : Byte) (ref : FlagRef) :
    (s.configure sel ref).result = s.result := rfl
@[simp] theorem State.configure_fault (sel : Byte) (ref : FlagRef) :
    (s.configure sel ref).fault = s.fault := rfl
@[simp] theorem State.configure_pinDir (sel : Byte) (ref : FlagRef) :
    (s.configure sel ref).pinDir = s.pinDir := rfl
@[simp] theorem State.configure_pinOut (sel : Byte) (ref : FlagRef) :
    (s.configure sel ref).pinOut = s.pinOut := rfl
@[simp] theorem State.configure_seq (sel : Byte) (ref : FlagRef) :
    (s.configure sel ref).seq = s.seq := rfl
@[simp] theorem State.configure_evt (sel : Byte) (ref : FlagRef) :
    (s.configure sel ref).evt = s.evt ++ [.regWrite .tCtrl (setMode s.tCtrl 0#1)] ++ [.regWrite .tIen sel] := rfl
@[simp] theorem State.configure_cbOut (sel : Byte) (ref : FlagRef) :
    (s.configure sel ref).cbOut = s.cbOut := rfl
@[simp] theorem State.configure_mem (sel : Byte) (ref : FlagRef) :
    (s.configure sel ref).mem = s.mem := rfl
@[simp] theorem State.configure_params (sel : Byte) (ref : FlagRef) :
    (s.configure sel ref).params = s.params := rfl
@[simp] theorem State.configure_cmds (sel : Byte) (ref : FlagRef) :
    (s.configure sel ref).cmds = s.cmds := rfl
@[simp] theorem State.configure_agenda (sel : Byte) (ref : FlagRef) :
    (s.configure sel ref).agenda = s.agenda := rfl

@[simp] theorem State.startDelay_tCtrl (p : Plan) :
    (s.startDelay p).tCtrl = setCs 0x00#8 Config.delayPrescalerCode := rfl
@[simp] theorem State.startDelay_tCnt (p : Plan) :
    (s.startDelay p).tCnt = BitVec.ofNat 8 p.preload := rfl
@[simp] theorem State.startDelay_tIen (p : Plan) : (s.startDelay p).tIen = s.tIen := rfl
@[simp] theorem State.startDelay_tFlg (p : Plan) : (s.startDelay p).tFlg = s.tFlg := rfl
@[simp] theorem State.startDelay_ovfPend (p : Plan) : (s.startDelay p).ovfPend = s.ovfPend := rfl
@[simp] theorem State.startDelay_ovfNeeded (p : Plan) :
    (s.startDelay p).ovfNeeded = BitVec.ofNat 16 p.needed := rfl
@[simp] theorem State.startDelay_isrCnt (p : Plan) : (s.startDelay p).isrCnt = s.isrCnt := rfl
@[simp] theorem State.startDelay_tref (p : Plan) : (s.startDelay p).tref = s.tref := rfl
@[simp] theorem State.startDelay_mref (p : Plan) : (s.startDelay p).mref = s.mref := rfl
@[simp] theorem State.startDelay_cb (p : Plan) : (s.startDelay p).cb = s.cb := rfl
@[simp] theorem State.startDelay_mstop (p : Plan) : (s.startDelay p).mstop = s.mstop := rfl
@[simp] theorem State.startDelay_result (p : Plan) : (s.startDelay p).result = s.result := rfl
@[simp] theorem State.startDelay_fault (p : Plan) : (s.startDelay p).fault = s.fault := rfl
@[simp] theorem State.startDelay_pinDir (p : Plan) : (s.startDelay p).pinDir = s.pinDir := rfl
@[simp] theorem State.startDelay_pinOut (p : Plan) : (s.startDelay p).pinOut = s.pinOut := rfl
@[simp] theorem State.startDelay_seq (p : Plan) : (s.startDelay p).seq = .dpoll 0#16 :: s.seq := rfl
@[simp] theorem State.startDelay_evt (p : Plan) :
    (s.startDelay p).evt = s.evt ++ [.regWrite .tCtrl 0x00#8] ++ [.regWrite .tCnt (BitVec.ofNat 8 p.preload)]
      ++ [.regWrite .tCtrl (setCs 0x00#8 Config.delayPrescalerCode)] := rfl
@[simp] theorem State.startDelay_cbOut (p : Plan) : (s.startDelay p).cbOut = s.cbOut := rfl
@[simp] theorem State.startDelay_mem (p : Plan) : (s.startDelay p).mem = s.mem := rfl
@[simp] theorem State.startDelay_params (p : Plan) : (s.startDelay p).params = s.params := rfl
@[simp] theorem State.startDelay_cmds (p : Plan) : (s.startDelay p).cmds = s.cmds := rfl
@[simp] theorem State.startDelay_agenda (p : Plan) : (s.startDelay p).agenda = s.agenda := rfl

@[simp] theorem State.envWrite_tCtrl (k : Fin 2) (v : BitVec 1) : (s.envWrite k v).tCtrl = s.tCtrl := rfl
@[simp] theorem State.envWrite_tCnt (k : Fin 2) (v : BitVec 1) : (s.envWrite k v).tCnt = s.tCnt := rfl
@[simp] theorem State.envWrite_tIen (k : Fin 2) (v : BitVec 1) : (s.envWrite k v).tIen = s.tIen := rfl
@[simp] theorem State.envWrite_tFlg (k : Fin 2) (v : BitVec 1) : (s.envWrite k v).tFlg = s.tFlg := rfl
@[simp] theorem State.envWrite_ovfPend (k : Fin 2) (v : BitVec 1) :
    (s.envWrite k v).ovfPend = s.ovfPend := rfl
@[simp] theorem State.envWrite_ovfNeeded (k : Fin 2) (v : BitVec 1) :
    (s.envWrite k v).ovfNeeded = s.ovfNeeded := rfl
@[simp] theorem State.envWrite_isrCnt (k : Fin 2) (v : BitVec 1) :
    (s.envWrite k v).isrCnt = s.isrCnt := rfl
@[simp] theorem State.envWrite_tref (k : Fin 2) (v : BitVec 1) : (s.envWrite k v).tref = s.tref := rfl
@[simp] theorem State.envWrite_mref (k : Fin 2) (v : BitVec 1) : (s.envWrite k v).mref = s.mref := rfl
@[simp] theorem State.envWrite_cb (k : Fin 2) (v : BitVec 1) : (s.envWrite k v).cb = s.cb := rfl
@[simp] theorem State.envWrite_mstop (k : Fin 2) (v : BitVec 1) : (s.envWrite k v).mstop = s.mstop := rfl
@[simp] theorem State.envWrite_result (k : Fin 2) (v : BitVec 1) :
    (s.envWrite k v).result = s.result := rfl
@[simp] theorem State.envWrite_fault (k : Fin 2) (v : BitVec 1) : (s.envWrite k v).fault = s.fault := rfl
@[simp] theorem State.envWrite_pinDir (k : Fin 2) (v : BitVec 1) :
    (s.envWrite k v).pinDir = s.pinDir := rfl
@[simp] theorem State.envWrite_pinOut (k : Fin 2) (v : BitVec 1) :
    (s.envWrite k v).pinOut = s.pinOut := rfl
@[simp] theorem State.envWrite_seq (k : Fin 2) (v : BitVec 1) : (s.envWrite k v).seq = s.seq := rfl
@[simp] theorem State.envWrite_evt (k : Fin 2) (v : BitVec 1) : (s.envWrite k v).evt = s.evt := rfl
@[simp] theorem State.envWrite_cbOut (k : Fin 2) (v : BitVec 1) : (s.envWrite k v).cbOut = s.cbOut := rfl
@[simp] theorem State.envWrite_mem (k : Fin 2) (v : BitVec 1) :
    (s.envWrite k v).mem = s.mem.write k.val (levelByte v) := rfl
@[simp] theorem State.envWrite_params (k : Fin 2) (v : BitVec 1) :
    (s.envWrite k v).params = s.params := rfl
@[simp] theorem State.envWrite_cmds (k : Fin 2) (v : BitVec 1) : (s.envWrite k v).cmds = s.cmds := rfl
@[simp] theorem State.envWrite_agenda (k : Fin 2) (v : BitVec 1) :
    (s.envWrite k v).agenda = s.agenda := rfl

@[simp] theorem State.startStep_tCtrl : s.startStep.tCtrl = s.tCtrl := rfl
@[simp] theorem State.startStep_tCnt : s.startStep.tCnt = s.tCnt := rfl
@[simp] theorem State.startStep_tIen : s.startStep.tIen = s.tIen := rfl
@[simp] theorem State.startStep_tFlg : s.startStep.tFlg = s.tFlg := rfl
@[simp] theorem State.startStep_ovfPend : s.startStep.ovfPend = s.ovfPend := rfl
@[simp] theorem State.startStep_ovfNeeded : s.startStep.ovfNeeded = s.ovfNeeded := rfl
@[simp] theorem State.startStep_isrCnt : s.startStep.isrCnt = s.isrCnt := rfl
@[simp] theorem State.startStep_tref : s.startStep.tref = s.tref := rfl
@[simp] theorem State.startStep_mref : s.startStep.mref = s.mref := rfl
@[simp] theorem State.startStep_cb : s.startStep.cb = s.cb := rfl
@[simp] theorem State.startStep_mstop : s.startStep.mstop = s.mstop := rfl
@[simp] theorem State.startStep_result : s.startStep.result = s.result := rfl
@[simp] theorem State.startStep_fault : s.startStep.fault = s.fault := rfl
@[simp] theorem State.startStep_pinDir : s.startStep.pinDir = s.pinDir := rfl
@[simp] theorem State.startStep_pinOut : s.startStep.pinOut = s.pinOut := rfl
@[simp] theorem State.startStep_seq : s.startStep.seq = s.seq := rfl
@[simp] theorem State.startStep_evt : s.startStep.evt = s.evt := rfl
@[simp] theorem State.startStep_cbOut : s.startStep.cbOut = none := rfl
@[simp] theorem State.startStep_mem : s.startStep.mem = s.mem := rfl
@[simp] theorem State.startStep_params : s.startStep.params = s.params := rfl
@[simp] theorem State.startStep_cmds : s.startStep.cmds = s.cmds := rfl
@[simp] theorem State.startStep_agenda : s.startStep.agenda = s.agenda.tail := rfl

end Sys2Proof.Machine
end

