-- ==== Sys2Proof/Laws/Ops.lean ====
section
/-! SUPPORT. For each shared operation, once, everything it can do. -/

namespace Sys2Proof.Machine

/-- A completion is the only thing `return-to-caller` can do, and it does it on the empty stack
only. -/
theorem State.returnToCaller_cases (s : State) (c : ResultCode) :
    (s.seq = [] ∧ s.returnToCaller c = s.complete c)
      ∨ (s.seq ≠ [] ∧ s.returnToCaller c = s) := by
  unfold State.returnToCaller
  split
  · rename_i h; exact .inl ⟨h, rfl⟩
  · rename_i h; exact .inr ⟨by simp [h], rfl⟩

theorem State.returnToCaller_idle {s : State} (h : s.seq = []) (c : ResultCode) :
    s.returnToCaller c = s.complete c := by simp [State.returnToCaller, h]

theorem State.returnToCaller_busy {s : State} {f : Frame} {r : List Frame} (h : s.seq = f :: r)
    (c : ResultCode) : s.returnToCaller c = s := by simp [State.returnToCaller, h]

/-- `ret` removes the top frame, and completes the command if that leaves the empty stack. -/
theorem State.ret_cases (s : State) (c : ResultCode) :
    (s.seq.tail = [] ∧ s.ret c = { s with seq := [] }.complete c)
      ∨ (s.seq.tail ≠ [] ∧ s.ret c = { s with seq := s.seq.tail }) := by
  rcases State.returnToCaller_cases { s with seq := s.seq.tail } c with ⟨h, e⟩ | ⟨h, e⟩
  · refine .inl ⟨h, ?_⟩
    have h' : s.seq.tail = [] := h
    rw [State.ret, e, h']
  · exact .inr ⟨h, e⟩

/-- A flag read raises the fault, stops on a cell that does not exist, or goes on with the byte. -/
theorem withFlag_cases (ref : FlagRef) (s : State) (k : Byte → Answer) :
    (ref = 0#2 ∧ withFlag ref s k = .next { s with fault := 1#8 })
      ∨ (ref = 3#2 ∧ withFlag ref s k = .fault (.noSuchCell 2))
      ∨ (∃ b, s.flagAt ref b ∧ withFlag ref s k = k b) := by
  by_cases h0 : ref = 0#2
  · exact .inl ⟨h0, by simp [withFlag, flagRead, h0, raiseFault, FaultReason.value]⟩
  · by_cases h3 : ref = 3#2
    · subst h3
      exact .inr (.inl ⟨rfl, by simp [withFlag, flagRead, Memory.read, Config.nFlagCells]⟩)
    · have hlt : ref.toNat - 1 < Config.nFlagCells := by
        revert h0 h3; revert ref; decide
      refine .inr (.inr ⟨s.mem.lookup (ref.toNat - 1), ⟨h0, Memory.read_of_lt hlt⟩, ?_⟩)
      simp [withFlag, flagRead, h0, Memory.read, hlt]

/-- With a byte behind the reference a flag read goes on with it. -/
theorem withFlag_flagAt {ref : FlagRef} {s : State} {b : Byte} (h : s.flagAt ref b)
    (k : Byte → Answer) : withFlag ref s k = k b := by
  simp [withFlag, flagRead, h.1, h.2]

/-- A flag read through the null reference raises `NullFlagRef`. -/
theorem withFlag_null {ref : FlagRef} (h : ref = 0#2) (s : State) (k : Byte → Answer) :
    withFlag ref s k = .next { s with fault := 1#8 } := by subst h; rfl

/-- A reference that a command can store is null or names a cell. -/
theorem flagAt_of_legal {s : State} {ref : FlagRef} (h : legalRef ref) (h0 : ref ≠ 0#2) :
    s.flagAt ref (s.mem.lookup (ref.toNat - 1)) := by
  refine ⟨h0, Memory.read_of_lt ?_⟩
  revert h h0; revert ref; decide

/-- What the entry of a delay can answer. -/
theorem callDelay_cases (m : Nat) (found s : State) (t : State)
    (hm : found.mem = s.mem) (h : callDelay m found s = .next t) :
    (plan s.params.tickNs m = none ∧ t = s.returnToCaller .rangeExceeded)
      ∨ ∃ p, plan s.params.tickNs m = some p
        ∧ ((s.tref = 0#2 ∧ t = { found with fault := 1#8 })
          ∨ (∃ b, s.flagAt s.tref b ∧ b ≠ 0#8 ∧ t = s.returnToCaller .aborted)
          ∨ (s.flagAt s.tref 0#8 ∧ t = s.startDelay p)) := by
  rw [callDelay] at h
  generalize plan s.params.tickNs m = o at h ⊢
  cases o with
  | none => cases h; exact .inl ⟨rfl, rfl⟩
  | some p =>
    refine .inr ⟨p, rfl, ?_⟩
    dsimp only at h
    rcases withFlag_cases s.tref found _ with ⟨h0, e⟩ | ⟨_, e⟩ | ⟨b, hb, e⟩
    · rw [e] at h; cases h; exact .inl ⟨h0, rfl⟩
    · rw [e] at h; cases h
    · rw [e] at h
      rw [State.flagAt, hm] at hb
      by_cases hz : b = 0#8
      · subst hz
        cases h; exact .inr (.inr ⟨hb, rfl⟩)
      · simp only [ne_eq, hz, not_false_eq_true, if_true] at h
        cases h; exact .inr (.inl ⟨b, hb, hz, rfl⟩)

/-- What the poll step can answer. -/
theorem pollStep_cases {cnt : Count} {rest : List Frame} {s t : State}
    (h : pollStep cnt rest s = .next t) :
    (s.tref = 0#2 ∧ t = { s with fault := 1#8 })
      ∨ (∃ b, s.flagAt s.tref b ∧ (s.ovfNeeded ≤ cnt + 1#16 ∨ b ≠ 0#8)
        ∧ t = ({ s with tFlg := setTov s.tFlg 0#1 }.emit (.regWrite .tFlg 0x00#8)).stopTimer.ret .ok)
      ∨ (s.flagAt s.tref 0#8 ∧ cnt + 1#16 < s.ovfNeeded
        ∧ t = { { s with tFlg := setTov s.tFlg 0#1 }.emit (.regWrite .tFlg 0x00#8) with
          seq := .dpoll (cnt + 1#16) :: rest }) := by
  unfold pollStep at h
  rcases withFlag_cases s.tref s _ with ⟨h0, e⟩ | ⟨_, e⟩ | ⟨b, hb, e⟩
  · rw [e] at h; cases h; exact .inl ⟨h0, rfl⟩
  · rw [e] at h; cases h
  · rw [e] at h
    dsimp only at h
    split at h
    · rename_i hc; cases h; exact .inr (.inl ⟨b, hb, hc, rfl⟩)
    · rename_i hc
      cases h
      have hc1 : ¬ s.ovfNeeded ≤ cnt + 1#16 := fun x => hc (.inl x)
      have hc2 : b = 0#8 := by
        by_contra hne; exact hc (.inr hne)
      subst hc2
      refine .inr (.inr ⟨hb, ?_, rfl⟩)
      bv_omega

/-- What the loop test can answer. -/
theorem setdcTest_cases {pct : Byte} {rest : List Frame} {s t : State}
    (h : setdcTest pct rest s = .next t) :
    (s.mref = 0#2 ∧ t = { s with fault := 1#8 })
      ∨ (s.flagAt s.mref 0#8 ∧ s.mstop = 0#1
        ∧ t = { s.writePinOut (s.pinOut ||| pwmMask) with seq := .setdc pct .on :: rest })
      ∨ (∃ b, s.flagAt s.mref b ∧ (s.mstop ≠ 0#1 ∨ b ≠ 0#8)
        ∧ t = { s with mstop := 0#1 }.ret .ok) := by
  unfold setdcTest at h
  rcases withFlag_cases s.mref s _ with ⟨h0, e⟩ | ⟨_, e⟩ | ⟨b, hb, e⟩
  · rw [e] at h; cases h; exact .inl ⟨h0, rfl⟩
  · rw [e] at h; cases h
  · rw [e] at h
    dsimp only at h
    split at h
    · rename_i hc
      obtain ⟨hm, hz⟩ := hc
      subst hz
      cases h; exact .inr (.inl ⟨hb, hm, rfl⟩)
    · rename_i hc
      cases h
      refine .inr (.inr ⟨b, hb, ?_, rfl⟩)
      by_cases hm : s.mstop = 0#1
      · exact .inr fun hz => hc ⟨hm, hz⟩
      · exact .inl hm

/-- What the invocation of the subscriber does. -/
theorem invokeCallback_cases (s : State) :
    (s.cb = 0#8 ∧ invokeCallback s = s)
      ∨ (s.cb = 1#8 ∧ invokeCallback s = s.updateStopFlag.emit (.cbInvoke 1#8))
      ∨ (s.cb ≠ 0#8 ∧ s.cb ≠ 1#8
        ∧ invokeCallback s = { s with cbOut := some s.cb }.emit (.cbInvoke s.cb)) := by
  unfold invokeCallback
  split
  · rename_i h; exact .inl ⟨h, rfl⟩
  · split
    · rename_i h; exact .inr (.inl ⟨h, rfl⟩)
    · rename_i h0 h1; exact .inr (.inr ⟨h0, h1, rfl⟩)

/-- What the interrupt service can answer. -/
theorem isr_cases {s t : State} (h : isr s = .next t) :
    (s.tref = 0#2 ∧ t = { s with fault := 1#8 })
      ∨ (∃ b, s.flagAt s.tref b ∧ (s.ovfNeeded ≤ s.isrCnt + 1#16 ∨ b ≠ 0#8)
        ∧ t = ({ s with ovfPend := 0#1, isrCnt := s.isrCnt + 1#16 }.emit
          (.isr (s.isrCnt + 1#16))).serveOverflow)
      ∨ (s.flagAt s.tref 0#8 ∧ s.isrCnt + 1#16 < s.ovfNeeded
        ∧ t = { s with ovfPend := 0#1, isrCnt := s.isrCnt + 1#16 }.emit
          (.isr (s.isrCnt + 1#16))) := by
  unfold isr at h
  rcases withFlag_cases s.tref s _ with ⟨h0, e⟩ | ⟨_, e⟩ | ⟨b, hb, e⟩
  · rw [e] at h; cases h; exact .inl ⟨h0, rfl⟩
  · rw [e] at h; cases h
  · rw [e] at h
    dsimp only at h
    split at h
    · rename_i hc; cases h; exact .inr (.inl ⟨b, hb, hc, rfl⟩)
    · rename_i hc
      cases h
      have hc1 : ¬ s.ovfNeeded ≤ s.isrCnt + 1#16 := fun x => hc (.inl x)
      have hc2 : b = 0#8 := by
        by_contra hne; exact hc (.inr hne)
      subst hc2
      refine .inr (.inr ⟨hb, ?_, rfl⟩)
      bv_omega

/-- What one count of the timer does. -/
theorem tick_cases (s : State) :
    (s.tCnt ≠ 255#8 ∧ tick s = { s with tCnt := s.tCnt + 1#8 })
      ∨ (s.tCnt = 255#8 ∧ toieOf s.tIen = 1#1
        ∧ tick s = { s with tCnt := 0#8, tFlg := setTov s.tFlg 1#1, ovfPend := 1#1 })
      ∨ (s.tCnt = 255#8 ∧ toieOf s.tIen ≠ 1#1
        ∧ tick s = { s with tCnt := 0#8, tFlg := setTov s.tFlg 1#1 }) := by
  unfold tick
  dsimp only
  split
  · rename_i h
    right
    by_cases ht : toieOf s.tIen = 1#1
    · exact .inl ⟨h, ht, by simp [State.overflow, ht, h]⟩
    · exact .inr ⟨h, ht, by simp [State.overflow, ht, h]⟩
  · rename_i h; exact .inl ⟨h, rfl⟩

/-- What `enter_setdc` does. -/
theorem State.enterSetdc_cases (s : State) (pct : Byte) :
    (validPercent pct ∧ s.enterSetdc pct = s.push (.setdc pct .test))
      ∨ (¬ validPercent pct ∧ s.enterSetdc pct = s.returnToCaller .rangeExceeded) := by
  unfold State.enterSetdc
  split
  · rename_i h; exact .inl ⟨h, rfl⟩
  · rename_i h; exact .inr ⟨h, rfl⟩

/-- What presenting a word can do: nothing to present, the word lost, a reserved word completed, a
command run. -/
theorem presentWord_cases (s : State) :
    (s.cmds = [] ∧ presentWord s = .next s)
      ∨ ∃ w ws, s.cmds = w :: ws
        ∧ ((¬ s.acceptEnabled ∧ presentWord s = .next { s with cmds := ws })
          ∨ (s.acceptEnabled ∧ (∃ r, decode w = .error r)
            ∧ presentWord s
              = .next (({ s with cmds := ws }.emit (.issue w)).complete .invalidArgument))
          ∨ (s.acceptEnabled ∧ ∃ i, decode w = .ok i
            ∧ presentWord s = exec i ({ s with cmds := ws }.emit (.issue w)))) := by
  unfold presentWord
  cases hc : s.cmds with
  | nil => exact .inl ⟨rfl, rfl⟩
  | cons w ws =>
    refine .inr ⟨w, ws, rfl, ?_⟩
    dsimp only
    by_cases ha : s.acceptEnabled
    · right
      rw [if_pos (show State.acceptEnabled { s with cmds := ws } from ha)]
      unfold accept
      cases hd : decode w with
      | error r => exact .inl ⟨ha, ⟨r, rfl⟩, rfl⟩
      | ok i => exact .inr ⟨ha, i, rfl, rfl⟩
    · left
      rw [if_neg (show ¬ State.acceptEnabled { s with cmds := ws } from ha)]
      exact ⟨ha, rfl⟩

/-- A step is the move that comes next, or waiting. -/
theorem step_cases (s : State) :
    (∃ m, nextMove s = some m ∧ step s = takeMove m s.startStep)
      ∨ (nextMove s = none ∧ step s = .next s.startStep) := by
  unfold step
  cases h : nextMove s with
  | none => exact .inr ⟨rfl, rfl⟩
  | some m => exact .inl ⟨m, rfl, rfl⟩

end Sys2Proof.Machine
end

