-- ==== Sys2Proof/Laws/Frames.lean ====
section
/-! SUPPORT. The frames of the operations that branch: returning to a caller, the subscriber's
invocation, the interrupt's service, the timer's count. -/

namespace Sys2Proof.Machine

variable (s : State)

@[simp] theorem State.returnToCaller_tCtrl (c : ResultCode) :
    (s.returnToCaller c).tCtrl = s.tCtrl := by
  unfold State.returnToCaller; split <;> rfl
@[simp] theorem State.returnToCaller_tCnt (c : ResultCode) :
    (s.returnToCaller c).tCnt = s.tCnt := by
  unfold State.returnToCaller; split <;> rfl
@[simp] theorem State.returnToCaller_tIen (c : ResultCode) :
    (s.returnToCaller c).tIen = s.tIen := by
  unfold State.returnToCaller; split <;> rfl
@[simp] theorem State.returnToCaller_tFlg (c : ResultCode) :
    (s.returnToCaller c).tFlg = s.tFlg := by
  unfold State.returnToCaller; split <;> rfl
@[simp] theorem State.returnToCaller_ovfPend (c : ResultCode) :
    (s.returnToCaller c).ovfPend = s.ovfPend := by
  unfold State.returnToCaller; split <;> rfl
@[simp] theorem State.returnToCaller_ovfNeeded (c : ResultCode) :
    (s.returnToCaller c).ovfNeeded = s.ovfNeeded := by
  unfold State.returnToCaller; split <;> rfl
@[simp] theorem State.returnToCaller_isrCnt (c : ResultCode) :
    (s.returnToCaller c).isrCnt = s.isrCnt := by
  unfold State.returnToCaller; split <;> rfl
@[simp] theorem State.returnToCaller_tref (c : ResultCode) :
    (s.returnToCaller c).tref = s.tref := by
  unfold State.returnToCaller; split <;> rfl
@[simp] theorem State.returnToCaller_mref (c : ResultCode) :
    (s.returnToCaller c).mref = s.mref := by
  unfold State.returnToCaller; split <;> rfl
@[simp] theorem State.returnToCaller_cb (c : ResultCode) :
    (s.returnToCaller c).cb = s.cb := by
  unfold State.returnToCaller; split <;> rfl
@[simp] theorem State.returnToCaller_mstop (c : ResultCode) :
    (s.returnToCaller c).mstop = s.mstop := by
  unfold State.returnToCaller; split <;> rfl
@[simp] theorem State.returnToCaller_fault (c : ResultCode) :
    (s.returnToCaller c).fault = s.fault := by
  unfold State.returnToCaller; split <;> rfl
@[simp] theorem State.returnToCaller_pinDir (c : ResultCode) :
    (s.returnToCaller c).pinDir = s.pinDir := by
  unfold State.returnToCaller; split <;> rfl
@[simp] theorem State.returnToCaller_pinOut (c : ResultCode) :
    (s.returnToCaller c).pinOut = s.pinOut := by
  unfold State.returnToCaller; split <;> rfl
@[simp] theorem State.returnToCaller_seq (c : ResultCode) :
    (s.returnToCaller c).seq = s.seq := by
  unfold State.returnToCaller; split <;> rfl
@[simp] theorem State.returnToCaller_cbOut (c : ResultCode) :
    (s.returnToCaller c).cbOut = s.cbOut := by
  unfold State.returnToCaller; split <;> rfl
@[simp] theorem State.returnToCaller_mem (c : ResultCode) :
    (s.returnToCaller c).mem = s.mem := by
  unfold State.returnToCaller; split <;> rfl
@[simp] theorem State.returnToCaller_params (c : ResultCode) :
    (s.returnToCaller c).params = s.params := by
  unfold State.returnToCaller; split <;> rfl
@[simp] theorem State.returnToCaller_cmds (c : ResultCode) :
    (s.returnToCaller c).cmds = s.cmds := by
  unfold State.returnToCaller; split <;> rfl
@[simp] theorem State.returnToCaller_agenda (c : ResultCode) :
    (s.returnToCaller c).agenda = s.agenda := by
  unfold State.returnToCaller; split <;> rfl

@[simp] theorem State.ret_seq (c : ResultCode) : (s.ret c).seq = s.seq.tail :=
  State.returnToCaller_seq _ c
@[simp] theorem State.ret_tCtrl (c : ResultCode) : (s.ret c).tCtrl = s.tCtrl :=
  State.returnToCaller_tCtrl _ c
@[simp] theorem State.ret_tCnt (c : ResultCode) : (s.ret c).tCnt = s.tCnt :=
  State.returnToCaller_tCnt _ c
@[simp] theorem State.ret_tIen (c : ResultCode) : (s.ret c).tIen = s.tIen :=
  State.returnToCaller_tIen _ c
@[simp] theorem State.ret_tFlg (c : ResultCode) : (s.ret c).tFlg = s.tFlg :=
  State.returnToCaller_tFlg _ c
@[simp] theorem State.ret_ovfPend (c : ResultCode) : (s.ret c).ovfPend = s.ovfPend :=
  State.returnToCaller_ovfPend _ c
@[simp] theorem State.ret_ovfNeeded (c : ResultCode) : (s.ret c).ovfNeeded = s.ovfNeeded :=
  State.returnToCaller_ovfNeeded _ c
@[simp] theorem State.ret_isrCnt (c : ResultCode) : (s.ret c).isrCnt = s.isrCnt :=
  State.returnToCaller_isrCnt _ c
@[simp] theorem State.ret_tref (c : ResultCode) : (s.ret c).tref = s.tref :=
  State.returnToCaller_tref _ c
@[simp] theorem State.ret_mref (c : ResultCode) : (s.ret c).mref = s.mref :=
  State.returnToCaller_mref _ c
@[simp] theorem State.ret_cb (c : ResultCode) : (s.ret c).cb = s.cb :=
  State.returnToCaller_cb _ c
@[simp] theorem State.ret_mstop (c : ResultCode) : (s.ret c).mstop = s.mstop :=
  State.returnToCaller_mstop _ c
@[simp] theorem State.ret_fault (c : ResultCode) : (s.ret c).fault = s.fault :=
  State.returnToCaller_fault _ c
@[simp] theorem State.ret_pinDir (c : ResultCode) : (s.ret c).pinDir = s.pinDir :=
  State.returnToCaller_pinDir _ c
@[simp] theorem State.ret_pinOut (c : ResultCode) : (s.ret c).pinOut = s.pinOut :=
  State.returnToCaller_pinOut _ c
@[simp] theorem State.ret_cbOut (c : ResultCode) : (s.ret c).cbOut = s.cbOut :=
  State.returnToCaller_cbOut _ c
@[simp] theorem State.ret_mem (c : ResultCode) : (s.ret c).mem = s.mem :=
  State.returnToCaller_mem _ c
@[simp] theorem State.ret_params (c : ResultCode) : (s.ret c).params = s.params :=
  State.returnToCaller_params _ c
@[simp] theorem State.ret_cmds (c : ResultCode) : (s.ret c).cmds = s.cmds :=
  State.returnToCaller_cmds _ c
@[simp] theorem State.ret_agenda (c : ResultCode) : (s.ret c).agenda = s.agenda :=
  State.returnToCaller_agenda _ c

@[simp] theorem invokeCallback_tCtrl : (invokeCallback s).tCtrl = s.tCtrl := by
  rcases invokeCallback_cases s with ⟨_, e⟩ | ⟨_, e⟩ | ⟨_, _, e⟩ <;> rw [e] <;> rfl
@[simp] theorem invokeCallback_tCnt : (invokeCallback s).tCnt = s.tCnt := by
  rcases invokeCallback_cases s with ⟨_, e⟩ | ⟨_, e⟩ | ⟨_, _, e⟩ <;> rw [e] <;> rfl
@[simp] theorem invokeCallback_tIen : (invokeCallback s).tIen = s.tIen := by
  rcases invokeCallback_cases s with ⟨_, e⟩ | ⟨_, e⟩ | ⟨_, _, e⟩ <;> rw [e] <;> rfl
@[simp] theorem invokeCallback_tFlg : (invokeCallback s).tFlg = s.tFlg := by
  rcases invokeCallback_cases s with ⟨_, e⟩ | ⟨_, e⟩ | ⟨_, _, e⟩ <;> rw [e] <;> rfl
@[simp] theorem invokeCallback_ovfPend : (invokeCallback s).ovfPend = s.ovfPend := by
  rcases invokeCallback_cases s with ⟨_, e⟩ | ⟨_, e⟩ | ⟨_, _, e⟩ <;> rw [e] <;> rfl
@[simp] theorem invokeCallback_ovfNeeded : (invokeCallback s).ovfNeeded = s.ovfNeeded := by
  rcases invokeCallback_cases s with ⟨_, e⟩ | ⟨_, e⟩ | ⟨_, _, e⟩ <;> rw [e] <;> rfl
@[simp] theorem invokeCallback_isrCnt : (invokeCallback s).isrCnt = s.isrCnt := by
  rcases invokeCallback_cases s with ⟨_, e⟩ | ⟨_, e⟩ | ⟨_, _, e⟩ <;> rw [e] <;> rfl
@[simp] theorem invokeCallback_tref : (invokeCallback s).tref = s.tref := by
  rcases invokeCallback_cases s with ⟨_, e⟩ | ⟨_, e⟩ | ⟨_, _, e⟩ <;> rw [e] <;> rfl
@[simp] theorem invokeCallback_mref : (invokeCallback s).mref = s.mref := by
  rcases invokeCallback_cases s with ⟨_, e⟩ | ⟨_, e⟩ | ⟨_, _, e⟩ <;> rw [e] <;> rfl
@[simp] theorem invokeCallback_cb : (invokeCallback s).cb = s.cb := by
  rcases invokeCallback_cases s with ⟨_, e⟩ | ⟨_, e⟩ | ⟨_, _, e⟩ <;> rw [e] <;> rfl
@[simp] theorem invokeCallback_result : (invokeCallback s).result = s.result := by
  rcases invokeCallback_cases s with ⟨_, e⟩ | ⟨_, e⟩ | ⟨_, _, e⟩ <;> rw [e] <;> rfl
@[simp] theorem invokeCallback_fault : (invokeCallback s).fault = s.fault := by
  rcases invokeCallback_cases s with ⟨_, e⟩ | ⟨_, e⟩ | ⟨_, _, e⟩ <;> rw [e] <;> rfl
@[simp] theorem invokeCallback_pinDir : (invokeCallback s).pinDir = s.pinDir := by
  rcases invokeCallback_cases s with ⟨_, e⟩ | ⟨_, e⟩ | ⟨_, _, e⟩ <;> rw [e] <;> rfl
@[simp] theorem invokeCallback_pinOut : (invokeCallback s).pinOut = s.pinOut := by
  rcases invokeCallback_cases s with ⟨_, e⟩ | ⟨_, e⟩ | ⟨_, _, e⟩ <;> rw [e] <;> rfl
@[simp] theorem invokeCallback_seq : (invokeCallback s).seq = s.seq := by
  rcases invokeCallback_cases s with ⟨_, e⟩ | ⟨_, e⟩ | ⟨_, _, e⟩ <;> rw [e] <;> rfl
@[simp] theorem invokeCallback_mem : (invokeCallback s).mem = s.mem := by
  rcases invokeCallback_cases s with ⟨_, e⟩ | ⟨_, e⟩ | ⟨_, _, e⟩ <;> rw [e] <;> rfl
@[simp] theorem invokeCallback_params : (invokeCallback s).params = s.params := by
  rcases invokeCallback_cases s with ⟨_, e⟩ | ⟨_, e⟩ | ⟨_, _, e⟩ <;> rw [e] <;> rfl
@[simp] theorem invokeCallback_cmds : (invokeCallback s).cmds = s.cmds := by
  rcases invokeCallback_cases s with ⟨_, e⟩ | ⟨_, e⟩ | ⟨_, _, e⟩ <;> rw [e] <;> rfl
@[simp] theorem invokeCallback_agenda : (invokeCallback s).agenda = s.agenda := by
  rcases invokeCallback_cases s with ⟨_, e⟩ | ⟨_, e⟩ | ⟨_, _, e⟩ <;> rw [e] <;> rfl

@[simp] theorem State.serveOverflow_isrCnt : s.serveOverflow.isrCnt = 0#16 := by
  simp [State.serveOverflow]
@[simp] theorem State.serveOverflow_tCtrl : s.serveOverflow.tCtrl = setCs s.tCtrl 0#3 := by
  simp [State.serveOverflow]
@[simp] theorem State.serveOverflow_tCnt : s.serveOverflow.tCnt = s.tCnt := by
  simp [State.serveOverflow]
@[simp] theorem State.serveOverflow_tIen : s.serveOverflow.tIen = s.tIen := by
  simp [State.serveOverflow]
@[simp] theorem State.serveOverflow_tFlg : s.serveOverflow.tFlg = s.tFlg := by
  simp [State.serveOverflow]
@[simp] theorem State.serveOverflow_ovfPend : s.serveOverflow.ovfPend = s.ovfPend := by
  simp [State.serveOverflow]
@[simp] theorem State.serveOverflow_ovfNeeded : s.serveOverflow.ovfNeeded = s.ovfNeeded := by
  simp [State.serveOverflow]
@[simp] theorem State.serveOverflow_tref : s.serveOverflow.tref = s.tref := by
  simp [State.serveOverflow]
@[simp] theorem State.serveOverflow_mref : s.serveOverflow.mref = s.mref := by
  simp [State.serveOverflow]
@[simp] theorem State.serveOverflow_cb : s.serveOverflow.cb = s.cb := by
  simp [State.serveOverflow]
@[simp] theorem State.serveOverflow_result : s.serveOverflow.result = s.result := by
  simp [State.serveOverflow]
@[simp] theorem State.serveOverflow_fault : s.serveOverflow.fault = s.fault := by
  simp [State.serveOverflow]
@[simp] theorem State.serveOverflow_pinDir : s.serveOverflow.pinDir = s.pinDir := by
  simp [State.serveOverflow]
@[simp] theorem State.serveOverflow_pinOut : s.serveOverflow.pinOut = s.pinOut := by
  simp [State.serveOverflow]
@[simp] theorem State.serveOverflow_seq : s.serveOverflow.seq = s.seq := by
  simp [State.serveOverflow]
@[simp] theorem State.serveOverflow_mem : s.serveOverflow.mem = s.mem := by
  simp [State.serveOverflow]
@[simp] theorem State.serveOverflow_params : s.serveOverflow.params = s.params := by
  simp [State.serveOverflow]
@[simp] theorem State.serveOverflow_cmds : s.serveOverflow.cmds = s.cmds := by
  simp [State.serveOverflow]
@[simp] theorem State.serveOverflow_agenda : s.serveOverflow.agenda = s.agenda := by
  simp [State.serveOverflow]

@[simp] theorem tick_tCtrl : (tick s).tCtrl = s.tCtrl := by
  rcases tick_cases s with ⟨_, e⟩ | ⟨_, _, e⟩ | ⟨_, _, e⟩ <;> rw [e]
@[simp] theorem tick_tIen : (tick s).tIen = s.tIen := by
  rcases tick_cases s with ⟨_, e⟩ | ⟨_, _, e⟩ | ⟨_, _, e⟩ <;> rw [e]
@[simp] theorem tick_ovfNeeded : (tick s).ovfNeeded = s.ovfNeeded := by
  rcases tick_cases s with ⟨_, e⟩ | ⟨_, _, e⟩ | ⟨_, _, e⟩ <;> rw [e]
@[simp] theorem tick_isrCnt : (tick s).isrCnt = s.isrCnt := by
  rcases tick_cases s with ⟨_, e⟩ | ⟨_, _, e⟩ | ⟨_, _, e⟩ <;> rw [e]
@[simp] theorem tick_tref : (tick s).tref = s.tref := by
  rcases tick_cases s with ⟨_, e⟩ | ⟨_, _, e⟩ | ⟨_, _, e⟩ <;> rw [e]
@[simp] theorem tick_mref : (tick s).mref = s.mref := by
  rcases tick_cases s with ⟨_, e⟩ | ⟨_, _, e⟩ | ⟨_, _, e⟩ <;> rw [e]
@[simp] theorem tick_cb : (tick s).cb = s.cb := by
  rcases tick_cases s with ⟨_, e⟩ | ⟨_, _, e⟩ | ⟨_, _, e⟩ <;> rw [e]
@[simp] theorem tick_mstop : (tick s).mstop = s.mstop := by
  rcases tick_cases s with ⟨_, e⟩ | ⟨_, _, e⟩ | ⟨_, _, e⟩ <;> rw [e]
@[simp] theorem tick_result : (tick s).result = s.result := by
  rcases tick_cases s with ⟨_, e⟩ | ⟨_, _, e⟩ | ⟨_, _, e⟩ <;> rw [e]
@[simp] theorem tick_fault : (tick s).fault = s.fault := by
  rcases tick_cases s with ⟨_, e⟩ | ⟨_, _, e⟩ | ⟨_, _, e⟩ <;> rw [e]
@[simp] theorem tick_pinDir : (tick s).pinDir = s.pinDir := by
  rcases tick_cases s with ⟨_, e⟩ | ⟨_, _, e⟩ | ⟨_, _, e⟩ <;> rw [e]
@[simp] theorem tick_pinOut : (tick s).pinOut = s.pinOut := by
  rcases tick_cases s with ⟨_, e⟩ | ⟨_, _, e⟩ | ⟨_, _, e⟩ <;> rw [e]
@[simp] theorem tick_seq : (tick s).seq = s.seq := by
  rcases tick_cases s with ⟨_, e⟩ | ⟨_, _, e⟩ | ⟨_, _, e⟩ <;> rw [e]
@[simp] theorem tick_evt : (tick s).evt = s.evt := by
  rcases tick_cases s with ⟨_, e⟩ | ⟨_, _, e⟩ | ⟨_, _, e⟩ <;> rw [e]
@[simp] theorem tick_cbOut : (tick s).cbOut = s.cbOut := by
  rcases tick_cases s with ⟨_, e⟩ | ⟨_, _, e⟩ | ⟨_, _, e⟩ <;> rw [e]
@[simp] theorem tick_mem : (tick s).mem = s.mem := by
  rcases tick_cases s with ⟨_, e⟩ | ⟨_, _, e⟩ | ⟨_, _, e⟩ <;> rw [e]
@[simp] theorem tick_params : (tick s).params = s.params := by
  rcases tick_cases s with ⟨_, e⟩ | ⟨_, _, e⟩ | ⟨_, _, e⟩ <;> rw [e]
@[simp] theorem tick_cmds : (tick s).cmds = s.cmds := by
  rcases tick_cases s with ⟨_, e⟩ | ⟨_, _, e⟩ | ⟨_, _, e⟩ <;> rw [e]
@[simp] theorem tick_agenda : (tick s).agenda = s.agenda := by
  rcases tick_cases s with ⟨_, e⟩ | ⟨_, _, e⟩ | ⟨_, _, e⟩ <;> rw [e]

end Sys2Proof.Machine
end

