-- ==== Sys2Proof/Laws/PerInstr.lean ====
section
/-! SUPPORT. The families of statements made once per command. -/

namespace Sys2Proof.Laws

/-- The word of a command passes the mask and the match that the opcode table of spec/30_encoding.md
R84 gives its row, whatever the operands. -/
def EncodeSelectsRow.Statement : Instr → Prop
  | .cfgnm sel ref => encode (.cfgnm sel ref) &&& 0xFFFFFFFC00#40 = 0x0100000000#40
  | .delay ms => encode (.delay ms) &&& 0xFF00000000#40 = 0x0200000000#40
  | .setcb val => encode (.setcb val) &&& 0xFFFFFFFF00#40 = 0x0300000000#40
  | .minit ref => encode (.minit ref) &&& 0xFFFFFFFFFC#40 = 0x0400000000#40
  | .chdir side => encode (.chdir side) &&& 0xFFFFFFFFFE#40 = 0x0500000000#40
  | .setdc val => encode (.setdc val) &&& 0xFFFFFFFF00#40 = 0x0600000000#40
  | .rot => encode .rot &&& 0xFFFFFFFFFF#40 = 0x0700000000#40
  | .stop => encode .stop &&& 0xFFFFFFFFFF#40 = 0x0800000000#40
  | .updsf => encode .updsf &&& 0xFFFFFFFFFF#40 = 0x0900000000#40

theorem EncodeSelectsRow.cfgnm (sel : Byte) (ref : FlagRef) :
    EncodeSelectsRow.Statement (.cfgnm sel ref) := by
  apply BitVec.eq_of_getElem_eq
  intro j hj
  simp only [encode, placed]
  interval_cases j <;> simp

theorem EncodeSelectsRow.delay (ms : Millis) : EncodeSelectsRow.Statement (.delay ms) := by
  apply BitVec.eq_of_getElem_eq
  intro j hj
  simp only [encode, placed]
  interval_cases j <;> simp

theorem EncodeSelectsRow.setcb (val : Byte) : EncodeSelectsRow.Statement (.setcb val) := by
  revert val; unfold EncodeSelectsRow.Statement; decide

theorem EncodeSelectsRow.minit (ref : FlagRef) : EncodeSelectsRow.Statement (.minit ref) := by
  revert ref; unfold EncodeSelectsRow.Statement; decide

theorem EncodeSelectsRow.chdir (side : MotorSide) : EncodeSelectsRow.Statement (.chdir side) := by
  cases side <;> rfl

theorem EncodeSelectsRow.setdc (val : Byte) : EncodeSelectsRow.Statement (.setdc val) := by
  revert val; unfold EncodeSelectsRow.Statement; decide

theorem EncodeSelectsRow.rot : EncodeSelectsRow.Statement .rot := rfl

theorem EncodeSelectsRow.stop : EncodeSelectsRow.Statement .stop := rfl

theorem EncodeSelectsRow.updsf : EncodeSelectsRow.Statement .updsf := rfl

end Sys2Proof.Laws
end

