-- ==== Sys2Proof/Tests/Slice0.lean ====
section
/-! SUPPORT. Tests of the model on values of spec/95_test_vectors.md, and for every statement with
hypotheses a concrete state and operands that meet them all. -/

namespace Sys2Proof.Tests

open Sys2Proof.Machine

/-! ## Well-formedness: each check refuses an ill-formed term (30_encoding R87) -/

theorem test_wellFormed_cfgnm : (Instr.cfgnm 1#8 3#2).wellFormed = false
    ∧ (Instr.cfgnm 255#8 2#2).wellFormed = true := by decide

theorem test_wellFormed_minit : (Instr.minit 3#2).wellFormed = false
    ∧ (Instr.minit 0#2).wellFormed = true := by decide

/-! ## Decoding, one word per command written out from R82 and R84, field by field: opcode, reserved
zeros, operand; and the reserved words of table V4 -/

theorem test_decode_cfgnm :
    decode (0x01#8 ++ 0#22 ++ 0b10#2 ++ 0b00000001#8) = .ok (.cfgnm 1#8 2#2) := by decide
theorem test_decode_delay : decode (0x02#8 ++ 0x000003E8#32) = .ok (.delay 1000#32) := by decide
theorem test_decode_setcb : decode (0x03#8 ++ 0#24 ++ 0x07#8) = .ok (.setcb 7#8) := by decide
theorem test_decode_minit : decode (0x04#8 ++ 0#30 ++ 0b01#2) = .ok (.minit 1#2) := by decide
theorem test_decode_chdir : decode (0x05#8 ++ 0#31 ++ 0b1#1) = .ok (.chdir .left)
    ∧ decode (0x05#8 ++ 0#31 ++ 0b0#1) = .ok (.chdir .right) := by decide
theorem test_decode_setdc : decode (0x06#8 ++ 0#24 ++ 0x65#8) = .ok (.setdc 101#8) := by decide
theorem test_decode_rot : decode (0x07#8 ++ 0#32) = .ok .rot := by decide
theorem test_decode_stop : decode (0x08#8 ++ 0#32) = .ok .stop := by decide
theorem test_decode_updsf : decode (0x09#8 ++ 0#32) = .ok .updsf := by decide

theorem test_decode_reserved : decode 0xFF00000000#40 = .error .opcode
    ∧ decode 0x0100000400#40 = .error .reservedBits ∧ decode 0x0400000003#40 = .error .reference
    ∧ decode 0x0400000004#40 = .error .reservedBits ∧ decode 0x0500000002#40 = .error .reservedBits
    ∧ decode 0x0300000100#40 = .error .reservedBits := by decide

theorem test_table_word : decodeTableWord 40 0x0600000032 = some (.setdc 50#8)
    ∧ decodeTableWord 40 0x0700000001 = none := by decide

/-! ## One step on small states -/

/-- Both references on cell 0, everything else at reset, `FLAG[0]` as given. -/
def ready (flag : Byte) : State :=
  { State.reset with tref := 1#2, mref := 1#2, mem := Memory.write [] 0 flag }

/-- A host delay waiting with `POLL_CNT` and `OVF_NEEDED` as given and an overflow to consume. -/
def polling (flag : Byte) (cnt needed : Count) (rest : List Frame) : State :=
  { ready flag with
    tCtrl := 0x05#8, tFlg := 0x01#8, ovfNeeded := needed, seq := .dpoll cnt :: rest }

/-- An overflow interrupt pending, as in a row of table V8. -/
def interrupted (flag : Byte) (cnt needed : Count) (cb : Byte) : State :=
  { polling flag 0#16 needed [] with tIen := 0x01#8, ovfPend := 1#1, isrCnt := cnt, cb := cb }

/-- The host's duty-cycle loop in a phase. -/
def looping (flag : Byte) (pct : Byte) (ph : Phase) : State :=
  { ready flag with seq := [.setdc pct ph] }

/-- What a test reads of an answer. -/
def seen {α : Type} (f : State → α) : Answer → Option α
  | .next t => some (f t)
  | .fault _ => none
  | .refused _ => none

/-- Table V5, row 1. -/
theorem test_cfgnm : seen (fun t => (t.tIen, t.tref, t.evt)) (exec (.cfgnm 1#8 1#2) State.reset)
    = some (0x01#8, 1#2, [.regWrite .tCtrl 0x00#8, .regWrite .tIen 0x01#8, .result 0#8]) := by decide

/-- Table V5, row 4. -/
theorem test_cfgnm_selector : seen (fun t => (t.result, t.tref, t.evt))
    (exec (.cfgnm 255#8 0#2) (ready 0#8)) = some (1#8, 1#2, [.result 1#8]) := by decide

/-- Program P1: the entry of a one-second delay. -/
theorem test_delay : seen (fun t => (t.tCtrl, t.tCnt, t.ovfNeeded, t.seq))
    (exec (.delay 1000#32) (ready 0#8)) = some (0x05#8, 123#8, 31#16, [.dpoll 0#16]) := by decide

/-- Program P8, and the first row of table V6: the fault leaves everything else alone. -/
theorem test_delay_fault : exec (.delay 5#32) State.reset = .next { State.reset with fault := 1#8 }
    ∧ seen State.result (exec (.delay 2147451#32) State.reset) = some 2#8
    ∧ seen State.result (exec (.delay 0#32) (ready 1#8)) = some 3#8 := by
  refine ⟨rfl, by decide, by decide⟩

/-- Program P13. -/
theorem test_setcb : seen (fun t => (t.cb, t.result)) (exec (.setcb 7#8) State.reset)
      = some (7#8, 0#8)
    ∧ seen (fun t => (t.cb, t.result)) (exec (.setcb 0#8) { State.reset with cb := 7#8 })
      = some (7#8, 1#8) := by decide

/-- Table V5, `MINIT f1` over a reversed pattern. -/
theorem test_minit : seen (fun t => (t.pinDir, t.pinOut, t.mref, t.cb))
    (exec (.minit 2#2) { ready 0#8 with pinOut := 0b010010#6, cb := 7#8 })
    = some (0b111111#6, 0b001001#6, 2#2, 1#8) := by decide

/-- Program P14. -/
theorem test_chdir : seen State.pinOut (exec (.chdir .right) { ready 0#8 with pinOut := 0b001001#6 })
      = some 0b001010#6
    ∧ seen State.pinOut (exec (.chdir .left) { ready 0#8 with pinOut := 0b001010#6 })
      = some 0b010010#6 := by decide

/-- Program P13: the range check comes first, although `MREF` is null. -/
theorem test_setdc : seen (fun t => (t.result, t.fault, t.seq)) (exec (.setdc 101#8) State.reset)
      = some (2#8, 0#8, [])
    ∧ seen State.seq (exec (.setdc 100#8) State.reset) = some [.setdc 100#8 .test] := by decide

/-- Program P4: a rotate refused touches no pin. -/
theorem test_rot_refused : seen (fun t => (t.result, t.pinOut, t.evt))
    (exec .rot { ready 1#8 with pinOut := 0b001001#6 })
    = some (3#8, 0b001001#6, [.result 3#8]) := by decide

/-- Program P7: the first toggle and the two frames. -/
theorem test_rot : seen (fun t => (t.pinOut, t.seq)) (exec .rot { ready 0#8 with pinOut := 0b001001#6 })
    = some (0b001010#6, [.setdc 50#8 .test, .rotfin]) := by decide

/-- Table V5, `STOP`. -/
theorem test_stop : seen (fun t => (t.pinOut, t.mstop))
    (exec .stop { ready 0#8 with pinOut := 0b101101#6, mstop := 1#1 }) = some (0b001001#6, 0#1) := by
  decide

/-- Table V5, `UPDSF`. -/
theorem test_updsf : seen (fun t => (t.mstop, t.result)) (exec .updsf (ready 0#8)) = some (1#1, 0#8) := by
  decide

/-- Table V8, rows 2, 4 and 5. -/
theorem test_isr : seen (fun t => (t.isrCnt, t.tCtrl, t.mstop)) (isr (interrupted 0#8 30#16 31#16 1#8))
      = some (0#16, 0x00#8, 1#1)
    ∧ seen (fun t => (t.isrCnt, t.cbOut)) (isr (interrupted 0#8 0#16 1#16 0#8)) = some (0#16, none)
    ∧ seen (fun t => (t.isrCnt, t.cbOut)) (isr (interrupted 0#8 0#16 1#16 7#8))
      = some (0#16, some 7#8) := by decide

/-- Table V9. -/
theorem test_tick : (tick { polling 0#8 0#16 1#16 [] with tCnt := 123#8 }).tCnt = 124#8
    ∧ (tick { polling 0#8 0#16 1#16 [] with tCnt := 255#8, tFlg := 0#8 }).tFlg = 0x01#8
    ∧ (tick { polling 0#8 0#16 1#16 [] with tCnt := 255#8 }).ovfPend = 0#1
    ∧ (tick { polling 0#8 0#16 1#16 [] with tCnt := 255#8, tIen := 1#8 }).ovfPend = 1#1 := by decide

/-- Table V1: a clamp, the edges of the cases, a tie, a full first interval, the largest count. -/
theorem test_plan : plan 128000 0 = some ⟨1, 255⟩ ∧ plan 128000 32 = some ⟨1, 6⟩
    ∧ plan 128000 33 = some ⟨2, 254⟩ ∧ plan 128000 40 = some ⟨2, 199⟩
    ∧ plan 128000 426 = some ⟨14, 255⟩ ∧ plan 128000 4096 = some ⟨125, 0⟩
    ∧ plan 128000 2147450 = some ⟨65535, 7⟩ ∧ plan 128000 2147451 = none := by decide

/-- Table V3. -/
theorem test_plan_other_ticks : plan 125000 32 = some ⟨1, 0⟩ ∧ plan 100000 32 = some ⟨2, 192⟩
    ∧ plan 64000 1000 = some ⟨62, 247⟩ := by decide

/-- A placed word runs as the first command after reset. -/
theorem test_withFetchWord : seen (fun t => (t.mstop, t.evt)) (step (State.reset.withFetchWord 40 0x0900000000))
    = some (1#1, [.issue 0x0900000000#40, .result 0#8]) := by decide

/-! ## The invariant at the concrete states used below -/

/-- A waiting delay, with or without a loop under it, meets the invariant. -/
theorem inv_polling {flag : Byte} {cnt needed : Count} {rest : List Frame}
    (hf : flag = 0#8 ∨ flag = 1#8) (hc : cnt < needed)
    (hr : rest = [] ∨ rest = [.setdc 35#8 .test]) : Inv (polling flag cnt needed rest) := by
  have hm : (Memory.write [] 0 flag).wf = true ∧ (Memory.write [] 0 flag).binary = true := by
    rcases hf with rfl | rfl <;> decide
  exact {
    memWf := hm.1, memBinary := hm.2, ctrl := .inr rfl, ien := .inl rfl, flg := .inr rfl
    trefLegal := show (1#2 : FlagRef) ≠ 3#2 by decide
    mrefLegal := show (1#2 : FlagRef) ≠ 3#2 by decide
    resultCode := show 0#8 ≤ 3#8 by decide
    faultCode := .inl rfl
    stack := by
      rcases hr with rfl | rfl
      · trivial
      · exact ⟨.inr rfl, show (35 : Nat) ≤ 100 by decide⟩
    running := fun _ => rfl
    tovQuiet := fun h => absurd h (by simp [polling, Machine.polling])
    pendQuiet := fun _ => rfl
    trefSet := fun _ => show (1#2 : FlagRef) ≠ 0#2 by decide
    mrefSet := fun _ => show (1#2 : FlagRef) ≠ 0#2 by decide
    pollBelow := fun c h => by
      have e : cnt = c := Option.some.inj h
      exact e ▸ hc
    isrBelow := show 0#16 < 65535#16 by decide
    pwm := by
      rcases hr with rfl | rfl <;> exact show 0#6 &&& pwmMask = 0#6 by decide
    rotateClear := fun h => by simp [polling] at h
    tick := show 0 < 128000 by decide }

/-- The reset state with the references set meets the invariant. -/
theorem inv_ready : Inv (ready 1#8) where
  memWf := rfl
  memBinary := rfl
  ctrl := .inl rfl
  ien := .inl rfl
  flg := .inl rfl
  trefLegal := show (1#2 : FlagRef) ≠ 3#2 by decide
  mrefLegal := show (1#2 : FlagRef) ≠ 3#2 by decide
  resultCode := show 0#8 ≤ 3#8 by decide
  faultCode := .inl rfl
  stack := trivial
  running := fun h => absurd rfl h
  tovQuiet := fun _ => rfl
  pendQuiet := fun _ => rfl
  trefSet := fun h => absurd h (by decide)
  mrefSet := fun h => absurd h (by decide)
  pollBelow := fun _ h => absurd h (by simp [pollCount, ready, State.reset])
  isrBelow := show 0#16 < 65535#16 by decide
  pwm := rfl
  rotateClear := fun h => absurd h (by decide)
  tick := show 0 < 128000 by decide

/-- Program P18(b) just before its `Isr`. -/
def shortPulse : State :=
  { polling 1#8 0#16 4#16 [] with
    tIen := 0x01#8, ovfPend := 1#1, agenda := [.isr, .envWrite 0 0#1, .seqStep] }

theorem inv_shortPulse : Inv shortPulse :=
  { inv_polling (flag := 1#8) (cnt := 0#16) (needed := 4#16) (.inr rfl) (by decide) (.inl rfl) with
    ien := .inr rfl
    pendQuiet := fun h => absurd h (by simp [shortPulse, polling, Machine.polling]) }

/-- Program P9 at its end: the hang with a stale count. -/
def hanging : State :=
  { ready 0#8 with tIen := 0x01#8, ovfNeeded := 4#16, seq := [.dpoll 3#16] }

/-! ## Witnesses: for every statement with hypotheses, values that meet them all, clause by clause -/

/-- Words at the ends of the operand ranges. -/
theorem witness_DecodeAfterEncode : ([.cfgnm 0#8 0#2, .cfgnm 255#8 2#2, .delay 0#32,
    .delay 0xFFFFFFFF#32, .setcb 255#8, .minit 2#2, .chdir .left, .setdc 255#8, .rot, .stop,
    .updsf] : List Instr).all Instr.wellFormed = true := by decide

theorem witness_EncodeAfterDecode : decode 0x02FFFFFFFF#40 = .ok (.delay 0xFFFFFFFF#32) := by decide

/-- The host's word at an idle block, presented by the eager schedule. -/
def offering (w : CmdWord) : State := { ready 0#8 with cmds := [w] }

theorem witness_StepRunsAcceptedCommand : (offering 0x0800000000#40).seq = []
    ∧ (offering 0x0800000000#40).fault = 0#8 ∧ (offering 0x0800000000#40).ovfPend = 0#1
    ∧ nextMove (offering 0x0800000000#40) = some .present
    ∧ decode 0x0800000000#40 = .ok .stop := by decide

theorem witness_StepRunsPlacedCommand : State.reset.seq = [] ∧ State.reset.fault = 0#8
    ∧ State.reset.ovfPend = 0#1 ∧ decodeTableWord 40 0x02000003E8 = some (.delay 1000#32) := by decide

/-- First clause; then the four edges of the reserved opcodes. -/
theorem witness_ReservedWordCompletes : nextMove (offering 0x0700000001#40) = some .present
    ∧ decode 0x0700000001#40 = .error .reservedBits
    ∧ (0x0000000000#40).extractLsb' 32 8 = 0x00#8 ∧ 0x09#8 < (0x0A00000000#40).extractLsb' 32 8
    ∧ 0x09#8 < (0xFFFFFFFFFF#40).extractLsb' 32 8 := by decide

/-- Each of the three reasons alone. -/
theorem witness_WordWhileBusyIsLost :
    (∃ s : State, s.seq ≠ [] ∧ s.fault = 0#8 ∧ s.ovfPend = 0#1 ∧ nextMove s = some .present
      ∧ s.cmds = [0x0800000000#40])
    ∧ (∃ s : State, s.seq = [] ∧ s.fault ≠ 0#8 ∧ s.ovfPend = 0#1 ∧ nextMove s = some .present
      ∧ s.cmds = [0x0800000000#40])
    ∧ ∃ s : State, s.seq = [] ∧ s.fault = 0#8 ∧ s.ovfPend ≠ 0#1 ∧ nextMove s = some .present
      ∧ s.cmds = [0x0800000000#40] :=
  ⟨⟨{ offering 0x0800000000#40 with seq := [.rotfin], agenda := [.present] }, by decide⟩,
    ⟨{ offering 0x0800000000#40 with fault := 1#8, agenda := [.present] }, by decide⟩,
    ⟨{ offering 0x0800000000#40 with ovfPend := 1#1, agenda := [.present] }, by decide⟩⟩

/-- The invariant holds of an idle and of a busy state. -/
theorem witness_AcceptsExactlyWhenNotBusy : (Inv (ready 1#8) ∧ (ready 1#8).busy = false)
    ∧ Inv (polling 0#8 3#16 4#16 []) ∧ (polling 0#8 3#16 4#16 []).busy = true :=
  ⟨⟨inv_ready, by decide⟩, inv_polling (.inl rfl) (by decide) (.inl rfl), by decide⟩

/-- The two valid selectors, the first and the last invalid one, each legal reference. -/
theorem witness_CfgnmConfigures : (0#2 : FlagRef) ≠ 3#2 ∧ (2#2 : FlagRef) ≠ 3#2
    ∧ (0#8 : Byte) ≤ 1#8 ∧ (1#8 : Byte) ≤ 1#8 ∧ (1#8 : Byte) < 2#8 ∧ (1#8 : Byte) < 255#8 := by decide

theorem witness_SetcbStoresSubscriber : (1#8 : Byte) ≠ 0#8 ∧ (255#8 : Byte) ≠ 0#8
    ∧ { ready 0#8 with cb := 7#8 }.cb ≠ 0#8
    ∧ ∃ t, exec (.setcb 0#8) { ready 0#8 with cb := 7#8 } = .next t :=
  ⟨by decide, by decide, by decide, _, rfl⟩

theorem witness_MinitInitialises : (0#2 : FlagRef) ≠ 3#2 ∧ (2#2 : FlagRef) ≠ 3#2 := by decide

theorem witness_ChdirTogglesOnePair : ∃ t u : State,
    exec (.chdir .left) State.reset = .next t ∧ exec (.chdir .left) t = .next u :=
  ⟨_, _, rfl, rfl⟩

theorem witness_StopLowersPwmPins : ∃ t : State, exec .stop State.reset = .next t := ⟨_, rfl⟩

/-- The shortest and the longest delay that is accepted. -/
theorem witness_DelayStartsTimer : (ready 0#8).flagAt (ready 0#8).tref 0#8
    ∧ plan (ready 0#8).params.tickNs (0#32).toNat = some ⟨1, 255⟩
    ∧ plan (ready 0#8).params.tickNs (2147450#32).toNat = some ⟨65535, 7⟩ := by decide

/-- The first delay out of range; the last one in range with a null reference, and with the flag
Up. -/
theorem witness_DelayRefusals : State.reset.seq = []
    ∧ 256 * State.reset.params.tickNs * 65535 < (2147451#32).toNat * 1000000
    ∧ (2147450#32).toNat * 1000000 ≤ 256 * State.reset.params.tickNs * 65535
    ∧ State.reset.tref = 0#2
    ∧ (ready 1#8).seq = [] ∧ (ready 1#8).flagAt (ready 1#8).tref 1#8
    ∧ (2147450#32).toNat * 1000000 ≤ 256 * (ready 1#8).params.tickNs * 65535 := by decide

theorem witness_SetdcEntersLoop : (0#8 : Byte) ≤ 100#8 ∧ (100#8 : Byte) ≤ 100#8
    ∧ (100#8 : Byte) < 101#8 ∧ (100#8 : Byte) < 255#8 ∧ State.reset.seq = [] := by decide

theorem witness_RotStartsRotation : (ready 0#8).flagAt (ready 0#8).mref 0#8
    ∧ (ready 1#8).flagAt (ready 1#8).mref 1#8 ∧ State.reset.mref = 0#2 := by decide

/-- A command outside every exception of the frame, and one inside. -/
theorem witness_CommandsWriteOnlyTheirRegisters : (∃ t, exec .updsf State.reset = .next t)
    ∧ ∃ t, exec (.delay 0#32) (ready 0#8) = .next t := ⟨⟨_, rfl⟩, _, rfl⟩

/-- A state for each clause of the poll step: no overflow; null reference; not the last overflow; the
last overflow of the host's delay and of a loop's delay; the flag Up before the last. -/
theorem witness_PollStepCountsOverflows :
    { polling 0#8 0#16 2#16 [] with tFlg := 0#8 }.tFlg.getLsbD 0 = false
    ∧ (polling 0#8 0#16 2#16 []).tFlg.getLsbD 0 = true
    ∧ (polling 0#8 0#16 2#16 []).fault = 0#8 ∧ (polling 0#8 0#16 2#16 []).ovfPend = 0#1
    ∧ { polling 0#8 0#16 2#16 [] with tref := 0#2 }.tref = 0#2
    ∧ (polling 0#8 0#16 2#16 []).flagAt 1#2 0#8
    ∧ (0#16 : Count) + 1#16 < (polling 0#8 0#16 2#16 []).ovfNeeded
    ∧ (polling 0#8 1#16 2#16 []).ovfNeeded ≤ (1#16 : Count) + 1#16
    ∧ (polling 0#8 1#16 2#16 [.setdc 35#8 .low]).seq = [.dpoll 1#16, .setdc 35#8 .low]
    ∧ (polling 1#8 0#16 2#16 []).flagAt 1#2 1#8 := by decide

theorem witness_LoopTestDrivesOrReturns : (looping 0#8 35#8 .test).seq = [.setdc 35#8 .test]
    ∧ (looping 0#8 35#8 .test).fault = 0#8 ∧ (looping 0#8 35#8 .test).ovfPend = 0#1
    ∧ { looping 0#8 35#8 .test with mref := 0#2 }.mref = 0#2
    ∧ (looping 0#8 35#8 .test).flagAt 1#2 0#8 ∧ (looping 0#8 35#8 .test).mstop = 0#1
    ∧ { looping 0#8 35#8 .test with mstop := 1#1 }.mstop = 1#1
    ∧ (looping 1#8 35#8 .test).flagAt 1#2 1#8
    ∧ { looping 1#8 50#8 .test with seq := [.setdc 50#8 .test, .rotfin] }.seq
      = .setdc 50#8 .test :: [.rotfin] := by decide

/-- The on-phase and the off-phase at the ends of the percent range, the flag Down and Up, a PWM tick
that puts the delay out of range, and a null `TREF`. -/
theorem witness_LoopDelaysCallTheTimer : (looping 0#8 100#8 .on).seq = [.setdc 100#8 .on]
    ∧ (100#8 : Byte) ≤ 100#8 ∧ (looping 0#8 100#8 .on).params.pwmTickMs = 1
    ∧ (looping 0#8 100#8 .on).fault = 0#8 ∧ (looping 0#8 100#8 .on).ovfPend = 0#1
    ∧ plan (looping 0#8 100#8 .on).params.tickNs ((100#8 : Byte).toNat / 10 * 1) = some ⟨1, 178⟩
    ∧ (looping 0#8 100#8 .on).flagAt 1#2 0#8
    ∧ plan (looping 1#8 100#8 .off).params.tickNs ((10 - (100#8 : Byte).toNat / 10) * 1)
      = some ⟨1, 255⟩
    ∧ (looping 1#8 100#8 .off).flagAt 1#2 1#8
    ∧ plan 128000 ((10 - (0#8 : Byte).toNat / 10) * 1000000) = none
    ∧ { looping 0#8 0#8 .off with tref := 0#2 }.tref = 0#2 := by decide

theorem witness_LowPhaseLowersPwmPins : (looping 0#8 35#8 .low).seq = [.setdc 35#8 .low]
    ∧ (looping 0#8 35#8 .low).fault = 0#8 ∧ (looping 0#8 35#8 .low).ovfPend = 0#1 := by decide

theorem witness_RotateEndTogglesBack : { ready 0#8 with seq := [.rotfin] }.seq = [.rotfin]
    ∧ (ready 0#8).fault = 0#8 ∧ (ready 0#8).ovfPend = 0#1 := by decide

/-- A running timer at the wrap; a stopped one, a halted and a pre-empted one. -/
theorem witness_TickCountsAndFlagsOverflow :
    { polling 0#8 0#16 1#16 [] with tCnt := 255#8 }.tCtrl &&& 0x07#8 ≠ 0#8
    ∧ (polling 0#8 0#16 1#16 []).fault = 0#8 ∧ (polling 0#8 0#16 1#16 []).ovfPend = 0#1
    ∧ State.reset.tCtrl &&& 0x07#8 = 0#8 ∧ { State.reset with fault := 1#8 }.fault ≠ 0#8
    ∧ (interrupted 0#8 0#16 1#16 0#8).ovfPend ≠ 0#1 := by decide

/-- A state for each clause of the service: not pending, halted, null reference, below the count, at
the count for no subscriber, `updateStopFlag` and the first and last external one, and the flag
Up. -/
theorem witness_IsrServesOverflow : State.reset.ovfPend = 0#1
    ∧ { interrupted 0#8 0#16 1#16 0#8 with fault := 1#8 }.fault ≠ 0#8
    ∧ (interrupted 0#8 0#16 31#16 1#8).ovfPend = 1#1 ∧ (interrupted 0#8 0#16 31#16 1#8).fault = 0#8
    ∧ { interrupted 0#8 0#16 31#16 1#8 with tref := 0#2 }.tref = 0#2
    ∧ (interrupted 0#8 0#16 31#16 1#8).flagAt 1#2 0#8
    ∧ (interrupted 0#8 29#16 31#16 1#8).isrCnt + 1#16 < (interrupted 0#8 29#16 31#16 1#8).ovfNeeded
    ∧ (interrupted 0#8 30#16 31#16 1#8).ovfNeeded ≤ (interrupted 0#8 30#16 31#16 1#8).isrCnt + 1#16
    ∧ (interrupted 1#8 3#16 31#16 1#8).flagAt 1#2 1#8
    ∧ (interrupted 0#8 0#16 1#16 0#8).cb = 0#8 ∧ (interrupted 0#8 0#16 1#16 1#8).cb = 1#8
    ∧ 1#8 < (interrupted 0#8 0#16 1#16 2#8).cb ∧ 1#8 < (interrupted 0#8 0#16 1#16 255#8).cb := by
  decide

/-- The last clause of the service's statement: a state of the block with an interrupt pending. -/
theorem witness_IsrServesOverflow_inv : Inv shortPulse ∧ shortPulse.ovfPend = 1#1 :=
  ⟨inv_shortPulse, rfl⟩

/-- A canonical memory, another cell than the one written, and the reference of each cell. -/
theorem witness_EnvWriteChangesOneCell : (ready 1#8).mem.wf = true ∧ State.reset.mem.wf = true
    ∧ (0 : Nat) ≠ (1 : Fin 2).val ∧ (1#2 : FlagRef).toNat = (0 : Fin 2).val + 1
    ∧ (2#2 : FlagRef).toNat = (1 : Fin 2).val + 1 := by decide

theorem witness_FlagSpaceHasTwoCells : (2 : Nat) ≤ 2 := by decide

theorem witness_ResetRestoresBlock : { State.reset with fault := 1#8 }.fault ≠ 0#8
    ∧ nextMove { State.reset with fault := 1#8 } ≠ some .reset
    ∧ ∃ t, step { State.reset with fault := 1#8 } = .next t := ⟨by decide, by decide, _, rfl⟩

/-- The last count of the short case and the first of the long case. -/
theorem witness_PlanShortAndLongCase : plan 128000 32 = some ⟨1, 6⟩ ∧ 32 * 1000000 < 256 * 128000
    ∧ plan 128000 33 = some ⟨2, 254⟩ ∧ 256 * 128000 < 33 * 1000000 := by decide

theorem witness_PlanExactCase : 0 < 125000 ∧ 32 * 1000000 = 256 * 125000 := by decide

theorem witness_PlanBounds : 0 < 128000 ∧ plan 128000 0 = some ⟨1, 255⟩
    ∧ plan 128000 2147450 = some ⟨65535, 7⟩ := by decide

theorem witness_PlanWithinOneTick : 0 < 128000 ∧ plan 128000 0 = some ⟨1, 255⟩
    ∧ 128000 * (⟨1, 255⟩ : Plan).totalTicks = 0 * 1000000 + 128000
    ∧ plan 128000 11 = some ⟨1, 171⟩ := by decide

theorem witness_PlanReferenceClosedForms : (32 : Nat) ≤ 32 ∧ (33 : Nat) ≤ 33 ∧ (33 : Nat) ≤ 2147450
    ∧ (2147450 : Nat) ≤ 2147450 := by decide

theorem witness_DutyTicksSumToPeriod : (100#8 : Byte) ≤ 100#8 ∧ (9#8 : Byte) < 10#8
    ∧ (9#8 : Byte) ≤ 100#8 := by decide

/-- A delay of two overflows, with the interrupt disarmed and armed. -/
theorem witness_DelayLastsTotalTicks : ∀ ien : Byte, ien = 0x00#8 ∨ ien = 0x01#8 →
    ∃ s : State, s.tIen = ien ∧ s.seq = [] ∧ s.fault = 0#8 ∧ s.ovfPend = 0#1 ∧ s.agenda = []
      ∧ s.cmds = [0x0200000021#40] ∧ decode 0x0200000021#40 = .ok (.delay 33#32)
      ∧ plan s.params.tickNs (33#32).toNat = some ⟨2, 254⟩ ∧ 0 < s.params.tickNs
      ∧ s.flagAt s.tref 0#8 ∧ s.tFlg.getLsbD 0 = false ∧ s.isrCnt = 0#16 := by
  rintro ien (rfl | rfl)
  · exact ⟨{ offering 0x0200000021#40 with tIen := 0x00#8 }, by decide⟩
  · exact ⟨{ offering 0x0200000021#40 with tIen := 0x01#8 }, by decide⟩

/-- A state for each disabling condition of the three moves of the block and of a presented word. -/
theorem witness_DisabledMovesDoNothing : State.reset.seq = []
    ∧ { State.reset with fault := 1#8 }.fault ≠ 0#8 ∧ (interrupted 0#8 0#16 1#16 0#8).ovfPend ≠ 0#1
    ∧ hanging.seq = .dpoll 3#16 :: [] ∧ hanging.tFlg.getLsbD 0 = false
    ∧ State.reset.tCtrl &&& 0x07#8 = 0#8 ∧ State.reset.ovfPend = 0#1 ∧ hanging.seq ≠ [] := by decide

/-- A pending interrupt with a tick, and with nothing, on the agenda. -/
theorem witness_PendingInterruptPreempts :
    (∃ s t : State, s.ovfPend = 1#1 ∧ s.fault = 0#8 ∧ nextMove s = some .tick
      ∧ step s = .next t)
    ∧ ∃ s t : State, s.ovfPend = 1#1 ∧ s.fault = 0#8 ∧ s.agenda = [] ∧ step s = .next t :=
  ⟨⟨{ interrupted 0#8 0#16 2#16 1#8 with agenda := [.tick] }, _, rfl, rfl, rfl, rfl⟩,
    ⟨interrupted 0#8 0#16 2#16 1#8, _, rfl, rfl, rfl, rfl⟩⟩

theorem witness_FaultHaltsTheBlock : ∃ s t : State, s.fault ≠ 0#8 ∧ nextMove s = some .seqStep
    ∧ step s = .next t :=
  ⟨{ polling 0#8 0#16 2#16 [] with fault := 1#8, agenda := [.seqStep] }, _, by decide, rfl, rfl⟩

/-- The step at `s` answers a next state in which the piece of state `f` has another value. -/
def changes {α : Type} [DecidableEq α] (f : State → α) (s : State) : Bool :=
  match step s with
  | .next t => decide (f t ≠ f s)
  | .fault _ | .refused _ => false

/-- A timer one count before its overflow, the interrupt armed, about to count. -/
def wrapping : State :=
  { polling 0#8 0#16 2#16 [] with tFlg := 0x00#8, tIen := 0x01#8, tCnt := 255#8, agenda := [.tick] }

/-- For each clause a step, not a reset, that changes its piece of state. -/
theorem witness_RegistersHaveTheirWriters :
    (changes State.mem { ready 0#8 with agenda := [.envWrite 0 1#1] } = true
      ∧ changes State.tCtrl (offering 0x0200000005#40) = true
      ∧ changes State.tCnt (offering 0x0200000005#40) = true
      ∧ changes State.ovfNeeded (offering 0x0200000005#40) = true
      ∧ changes State.seq (offering 0x0200000005#40) = true
      ∧ changes State.evt (offering 0x0200000005#40) = true
      ∧ changes State.tIen (offering 0x0100000201#40) = true
      ∧ changes State.tref (offering 0x0100000201#40) = true
      ∧ changes State.tFlg wrapping = true ∧ changes State.ovfPend wrapping = true
      ∧ changes State.isrCnt (interrupted 0#8 29#16 31#16 7#8) = true
      ∧ changes State.cbOut (interrupted 0#8 30#16 31#16 7#8) = true
      ∧ changes State.mref (offering 0x0400000002#40) = true
      ∧ changes State.cb (offering 0x0400000002#40) = true
      ∧ changes State.pinDir (offering 0x0400000002#40) = true
      ∧ changes State.pinOut (offering 0x0400000002#40) = true
      ∧ changes State.mstop (offering 0x0900000000#40) = true
      ∧ changes State.result (offering 0x0300000000#40) = true
      ∧ changes State.fault { offering 0x0200000005#40 with tref := 0#2 } = true)
    ∧ nextMove (offering 0x0200000005#40) = some .present ∧ nextMove wrapping = some .tick
    ∧ nextMove (interrupted 0#8 29#16 31#16 7#8) = some .isr := by decide

theorem witness_LogIsAppendOnly : (∃ t : State, step (offering 0x0800000000#40) = .next t)
    ∧ nextMove (offering 0x0800000000#40) ≠ some .reset := ⟨⟨_, rfl⟩, by decide⟩

theorem witness_StepKeepsInvariant : Inv (polling 0#8 1#16 2#16 [])
    ∧ ∃ t : State, step (polling 0#8 1#16 2#16 []) = .next t :=
  ⟨inv_polling (.inl rfl) (by decide) (.inl rfl), _, rfl⟩

/-- Every initial value of the flag cells, and the smallest tick. -/
theorem witness_ResetMeetsInvariant : ([[], [(0, 1#8)], [(1, 1#8)], [(0, 1#8), (1, 1#8)]]
    : List Memory).all (fun m => m.wf && m.binary) = true ∧ 0 < 1 := by decide

theorem witness_EveryRunGoesOn : Inv (polling 1#8 0#16 2#16 []) :=
  inv_polling (.inr rfl) (by decide) (.inl rfl)

/-- An idle state, both references on an Up flag, whose next word is a `SETDC` at its largest percent or a `ROT`: the
first enters its loop, the second is refused with the stack as it was; a state whose move is the
sequencer's poll step, which returns; and an interrupt, which leaves the stack. -/
theorem witness_SequencerTransitions :
    (∀ w : CmdWord, Inv { ready 1#8 with cmds := [w] } ∧ { ready 1#8 with cmds := [w] }.acceptEnabled
      ∧ nextMove { ready 1#8 with cmds := [w] } = some .present)
    ∧ (∃ t, step { ready 1#8 with cmds := [0x0600000064#40] } = .next t ∧ t.seq = [.setdc 100#8 .test])
    ∧ (∃ t, step { ready 1#8 with cmds := [0x0700000000#40] } = .next t ∧ t.seq = [] ∧ t.result = 3#8)
    ∧ (Inv (polling 1#8 0#16 2#16 [.setdc 35#8 .test])
      ∧ nextMove (polling 1#8 0#16 2#16 [.setdc 35#8 .test]) = some .seqStep
      ∧ ∃ t, step (polling 1#8 0#16 2#16 [.setdc 35#8 .test]) = .next t ∧ t.seq = [.setdc 35#8 .test])
    ∧ (Inv shortPulse ∧ nextMove shortPulse = some .isr
      ∧ ∃ t, step shortPulse = .next t ∧ t.seq = shortPulse.seq) :=
  ⟨fun _ => ⟨{ inv_ready with }, ⟨rfl, rfl, rfl⟩, rfl⟩, ⟨_, rfl, rfl⟩, ⟨_, rfl, rfl, rfl⟩,
    ⟨inv_polling (.inr rfl) (by decide) (.inr rfl), by decide, _, rfl, rfl⟩,
    inv_shortPulse, rfl, _, rfl, rfl⟩

/-- `SETDC` at 100 and at 101 percent; `ROT` with the flag Down, with it Up and with a null `MREF`; and
another command. -/
theorem witness_MotorStateAtAccept : (ready 0#8).seq = [] ∧ (ready 1#8).seq = []
    ∧ State.reset.seq = []
    ∧ (∃ t, exec (.setdc 100#8) (ready 0#8) = .next t) ∧ (∃ t, exec (.setdc 101#8) (ready 0#8) = .next t)
    ∧ ((ready 0#8).flagAt (ready 0#8).mref 0#8 ∧ ∃ t, exec .rot (ready 0#8) = .next t)
    ∧ (¬ (ready 1#8).flagAt (ready 1#8).mref 0#8 ∧ ∃ t, exec .rot (ready 1#8) = .next t)
    ∧ (¬ State.reset.flagAt State.reset.mref 0#8 ∧ ∃ t, exec .rot State.reset = .next t)
    ∧ ∃ t, exec .stop (ready 0#8) = .next t :=
  ⟨rfl, rfl, rfl, ⟨_, rfl⟩, ⟨_, rfl⟩, ⟨by decide, _, rfl⟩, ⟨by decide, _, rfl⟩, ⟨by decide, _, rfl⟩,
    _, rfl⟩

/-- A host delay at its last overflow, and a loop whose flag is Up. -/
theorem witness_EndedCommandLeavesSafeState :
    (Inv (polling 0#8 1#16 2#16 []) ∧ (polling 0#8 1#16 2#16 []).seq ≠ []
      ∧ nextMove (polling 0#8 1#16 2#16 []) ≠ some .reset
      ∧ ∃ t : State, step (polling 0#8 1#16 2#16 []) = .next t ∧ t.seq = [])
    ∧ (Inv { ready 1#8 with seq := [.setdc 35#8 .test], mstop := 1#1 }
      ∧ (∀ c, { ready 1#8 with seq := [.setdc 35#8 .test], mstop := 1#1 }.seq ≠ [.dpoll c])
      ∧ ∃ t : State, step { ready 1#8 with seq := [.setdc 35#8 .test], mstop := 1#1 } = .next t
        ∧ t.seq = []) :=
  ⟨⟨inv_polling (.inl rfl) (by decide) (.inl rfl), by decide, by decide, _, rfl, rfl⟩,
    { inv_ready with
      stack := show (35 : Nat) ≤ 100 by decide
      pollBelow := fun _ h => absurd h (by simp [pollCount])
      rotateClear := fun h => absurd h (by decide) },
    by simp, _, rfl, rfl⟩

/-- An idle state with a tick, and with a word, as its next move. -/
theorem witness_NoRestartWithoutCommand : Inv (ready 1#8) ∧ (ready 1#8).seq = []
    ∧ nextMove (ready 1#8) ≠ some .present ∧ ∃ t : State, step (ready 1#8) = .next t ∧ t.seq = [] :=
  ⟨inv_ready, rfl, by decide, _, rfl, rfl⟩

/-- The host's loop and the loop of a rotate. -/
theorem witness_CancelledLoopReturns : ∀ rest : List Frame, rest = [] ∨ rest = [.rotfin] →
    ∃ s : State, s.seq = .setdc 50#8 .low :: rest ∧ s.fault = 0#8 ∧ s.ovfPend = 0#1 ∧ s.agenda = []
      ∧ s.flagAt s.tref 1#8 ∧ s.flagAt s.mref 1#8 := by
  rintro rest (rfl | rfl)
  · exact ⟨looping 1#8 50#8 .low, by decide⟩
  · exact ⟨{ ready 1#8 with seq := [.setdc 50#8 .low, .rotfin] }, by decide⟩

/-- Program P18(b). -/
theorem witness_ShortFlagPulseHangsTheDelay : Inv shortPulse ∧ shortPulse.seq = .dpoll 0#16 :: []
    ∧ shortPulse.fault = 0#8 ∧ shortPulse.ovfPend = 1#1 ∧ shortPulse.tFlg = 0x01#8
    ∧ shortPulse.tref.toNat = (0 : Fin 2).val + 1 ∧ shortPulse.mem.read (0 : Fin 2).val = some 1#8
    ∧ (0#16 : Count) + 1#16 < shortPulse.ovfNeeded
    ∧ shortPulse.agenda = [.isr, .envWrite 0 0#1, .seqStep] :=
  ⟨inv_shortPulse, by decide⟩

/-- Program P9 at its end, with a flag write and a word still to come. -/
theorem witness_OnlyResetLeavesAHang : hanging.hung ∧ Move.reset ∉ hanging.agenda
    ∧ { hanging with agenda := [.envWrite 0 1#1, .present], cmds := [0x0800000000#40] }.hung
    ∧ ∃ t : State, Host.Core.run core 2 hanging = .next t := by
  refine ⟨by decide, by decide, by decide, _, rfl⟩

end Sys2Proof.Tests
end

/-! The timer delay engine (spec/40_timer_delay.md): the register fields as masks, the answers of
`CFGNM`, of the poll step and of a count, and the range check and exact case of the plan. -/

namespace Sys2Proof.Machine

/-! ## The register fields as masks (10_state R20 to R24) -/

theorem setMode_zero (v : Byte) : setMode v 0#1 = v &&& 0xF7#8 := by
  revert v; decide

theorem setCs_zero (v : Byte) : setCs v 0#3 = v &&& 0xF8#8 := by
  revert v; decide

theorem csOf_ne_zero_iff (v : Byte) : csOf v ≠ 0#3 ↔ v &&& 0x07#8 ≠ 0#8 := by
  revert v; decide

theorem setTov_zero (v : Byte) : setTov v 0#1 = v &&& 0xFE#8 := by
  revert v; decide

theorem setTov_one (v : Byte) : setTov v 1#1 = v ||| 0x01#8 := by
  revert v; decide

theorem bit0Of_eq_one_iff (v : Byte) : bit0Of v = 1#1 ↔ v.getLsbD 0 = true := by
  revert v; decide

theorem tovOf_eq_one_iff (flg : Byte) : tovOf flg = 1#1 ↔ flg.getLsbD 0 = true :=
  bit0Of_eq_one_iff flg

theorem toieOf_eq_one_iff (ien : Byte) : toieOf ien = 1#1 ↔ ien.getLsbD 0 = true :=
  bit0Of_eq_one_iff ien

/-- The two valid selectors are the two values of the bit. -/
theorem validSelector_iff (sel : Byte) : validSelector sel ↔ sel = 0#8 ∨ sel = 1#8 := by
  revert sel; decide

theorem setToie_selectorBit (ien : Byte) {sel : Byte} (h : validSelector sel) :
    setToie ien (selectorBit sel) = (ien &&& 0xFE#8) ||| sel := by
  rcases (validSelector_iff sel).1 h with rfl | rfl
  · revert ien; decide
  · revert ien; decide

/-! ## The shared operations as one record update -/

theorem State.stopTimer_eq (s : State) :
    s.stopTimer = { s with
      tCtrl := s.tCtrl &&& 0xF8#8
      evt := s.evt ++ [.regWrite .tCtrl (s.tCtrl &&& 0xF8#8)] } := by
  rw [State.stopTimer, setCs_zero]; rfl

/-- `ret` with no caller waiting under the top frame. -/
theorem State.ret_last {s : State} {f : Frame} (h : s.seq = [f]) (c : ResultCode) :
    s.ret c = { s with seq := [] }.complete c := by
  rcases s.ret_cases c with ⟨_, e⟩ | ⟨hne, _⟩
  · exact e
  · simp [h] at hne

/-- `ret` to a frame that waits under the top one. -/
theorem State.ret_caller {s : State} {f : Frame} {rest : List Frame} (h : s.seq = f :: rest)
    (hr : rest ≠ []) (c : ResultCode) : s.ret c = { s with seq := rest } := by
  rcases s.ret_cases c with ⟨he, _⟩ | ⟨_, e⟩
  · simp [h, hr] at he
  · simpa [h] using e

/-! ## `CFGNM` (R110) -/

theorem exec_cfgnm (s : State) (sel : Byte) (ref : FlagRef) :
    exec (.cfgnm sel ref) s = execCfgnm sel ref s := rfl

theorem execCfgnm_valid {sel : Byte} {ref : FlagRef} (hs : validSelector sel) (hr : legalRef ref)
    (s : State) : execCfgnm sel ref s = .next ((s.configure sel ref).complete .ok) :=
  if_neg (not_or.2 ⟨not_not.2 hs, not_not.2 hr⟩)

theorem execCfgnm_invalidSelector {sel : Byte} (hs : ¬ validSelector sel) (ref : FlagRef)
    (s : State) : execCfgnm sel ref s = .next (s.complete .invalidArgument) :=
  if_pos (.inl hs)

theorem State.configure_eq {sel : Byte} (hs : validSelector sel) (ref : FlagRef) (s : State) :
    s.configure sel ref = { s with
      tCtrl := s.tCtrl &&& 0xF7#8
      tIen := (s.tIen &&& 0xFE#8) ||| sel
      tref := ref
      evt := s.evt ++ [.regWrite .tCtrl (s.tCtrl &&& 0xF7#8), .regWrite .tIen sel] } := by
  simp [State.configure, State.emit, setMode_zero, setToie_selectorBit _ hs]

/-- Settles O10: a valid selector passes the check of R110, any other fails it. -/
theorem cfgnmConfigures : Obligations.CfgnmConfigures := by
  intro s sel ref href
  rw [exec_cfgnm]
  constructor
  · intro hs
    rw [execCfgnm_valid hs href, State.configure_eq hs]
    simp [State.complete, State.emit, ResultCode.value]
  · intro hs
    have hinvalid : ¬ validSelector sel := by bv_omega
    rw [execCfgnm_invalidSelector hinvalid]
    rfl

/-! ## The poll step (R113) -/

/-- A waiting delay's step is enabled exactly by an overflow to consume (10_state R41). -/
theorem seqEnabled_dpoll_iff {s : State} {cnt : Count} {rest : List Frame}
    (hseq : s.seq = .dpoll cnt :: rest) :
    s.seqEnabled ↔ s.fault = 0#8 ∧ s.ovfPend = 0#1 ∧ s.tFlg.getLsbD 0 = true := by
  simp [State.seqEnabled, hseq, pollReady, tovOf_eq_one_iff]

theorem takeMove_seqStep_of_disabled {s : State} (h : ¬ s.seqEnabled) :
    takeMove .seqStep s = .next s := if_neg h

theorem takeMove_seqStep_of_enabled {s : State} (h : s.seqEnabled) :
    takeMove .seqStep s = seqStep s := if_pos h

theorem seqStep_dpoll {s : State} {cnt : Count} {rest : List Frame}
    (hseq : s.seq = .dpoll cnt :: rest) : seqStep s = pollStep cnt rest s := by
  simp only [seqStep, hseq]

/-- The state in which a poll step has cleared `TOV`. -/
def State.clearTov (s : State) : State :=
  { s with tFlg := s.tFlg &&& 0xFE#8, evt := s.evt ++ [.regWrite .tFlg 0x00#8] }

/-- With a byte behind `TREF` the poll step clears `TOV`, and either leaves the delay or counts. -/
theorem pollStep_flagAt {s : State} {b : Byte} (hb : s.flagAt s.tref b) (cnt : Count)
    (rest : List Frame) :
    pollStep cnt rest s = if s.ovfNeeded ≤ cnt + 1#16 ∨ b ≠ 0#8
      then .next (s.clearTov.stopTimer.ret .ok)
      else .next { s.clearTov with seq := .dpoll (cnt + 1#16) :: rest } := by
  rw [pollStep, withFlag_flagAt hb, setTov_zero]
  rfl

/-- A count below another is not the largest: `POLL_CNT` cannot wrap (R120). -/
theorem count_lt_max {c d : Count} (h : c < d) : c.toNat < 65535 := by bv_omega

/-- Settles O21: the step waits for `TOV`; then the flag read faults, counts, or leaves the delay to
a waiting caller or to the host. -/
theorem pollStepCountsOverflows : Obligations.PollStepCountsOverflows := by
  intro s cnt rest hseq hfault hpend
  have hen : s.seqEnabled ↔ s.tFlg.getLsbD 0 = true := by
    simp [seqEnabled_dpoll_iff hseq, hfault, hpend]
  have hpoll : s.tFlg.getLsbD 0 = true → takeMove .seqStep s = pollStep cnt rest s := fun htov =>
    (takeMove_seqStep_of_enabled (hen.2 htov)).trans (seqStep_dpoll hseq)
  refine ⟨fun htov => ?waits, fun htov hnull => ?faults, fun htov hdown hlt => ?counts,
    fun b htov hb hdone => ?leaves⟩
  case waits => exact takeMove_seqStep_of_disabled (by rw [hen, htov]; decide)
  case faults => rw [hpoll htov, pollStep, withFlag_null hnull]
  case counts =>
    have hgoesOn : ¬ (s.ovfNeeded ≤ cnt + 1#16 ∨ (0#8 : Byte) ≠ 0#8) := by
      simpa using hlt
    rw [hpoll htov, pollStep_flagAt hdown, if_neg hgoesOn]
    exact ⟨rfl, count_lt_max hlt⟩
  case leaves =>
    have hseq' : s.clearTov.stopTimer.seq = .dpoll cnt :: rest := hseq
    rw [hpoll htov, pollStep_flagAt hb, if_pos hdone]
    refine ⟨fun hcaller => ?_, fun hhost => ?_⟩
    · rw [State.ret_caller hseq' hcaller, State.stopTimer_eq]
      simp [State.clearTov]
    · subst hhost
      rw [State.ret_last hseq', State.stopTimer_eq]
      simp [State.clearTov, State.complete, State.emit, ResultCode.value]

/-! ## A count of the timer (R117) -/

theorem tickEnabled_iff (s : State) :
    s.tickEnabled ↔ s.tCtrl &&& 0x07#8 ≠ 0#8 ∧ s.fault = 0#8 ∧ s.ovfPend = 0#1 := by
  rw [State.tickEnabled, State.timerRunning, csOf_ne_zero_iff]

theorem takeMove_tick_of_enabled {s : State} (h : s.tickEnabled) :
    takeMove .tick s = .next (tick s) := if_pos h

theorem takeMove_tick_of_disabled {s : State} (h : ¬ s.tickEnabled) :
    takeMove .tick s = .next s := if_neg h

theorem byte_add_one_eq_mod (v : Byte) : v + 1#8 = BitVec.ofNat 8 ((v.toNat + 1) % 256) := by bv_omega

/-- A count with no interrupt pending, as one record update. -/
theorem tick_eq {s : State} (hpend : s.ovfPend = 0#1) :
    tick s = { s with
      tCnt := BitVec.ofNat 8 ((s.tCnt.toNat + 1) % 256)
      tFlg := if s.tCnt = 255#8 then s.tFlg ||| 0x01#8 else s.tFlg
      ovfPend := if s.tCnt = 255#8 ∧ s.tIen.getLsbD 0 = true then 1#1 else 0#1 } := by
  simp only [← byte_add_one_eq_mod, ← toieOf_eq_one_iff]
  rcases tick_cases s with ⟨hcnt, e⟩ | ⟨hcnt, harmed, e⟩ | ⟨hcnt, hdisarmed, e⟩
  · simp [e, hcnt, hpend]
  · simp [e, hcnt, harmed, setTov_one]
  · simp [e, hcnt, hdisarmed, hpend, setTov_one]

/-- Settles O26: `Tick` counts where it is enabled, and is enabled nowhere else. -/
theorem tickCountsAndFlagsOverflow : Obligations.TickCountsAndFlagsOverflow := by
  intro s
  constructor
  · intro hcs hfault hpend
    rw [takeMove_tick_of_enabled ((tickEnabled_iff s).2 ⟨hcs, hfault, hpend⟩), tick_eq hpend]
  · intro hblocked
    have hdisabled : ¬ s.tickEnabled := by rw [tickEnabled_iff]; tauto
    exact takeMove_tick_of_disabled hdisabled

/-! ## The plan (R100 to R103) -/

theorem elapsedNs_eq (m : Nat) : elapsedNs m = m * 1000000 := Nat.mul_comm _ _

theorem periodNs_eq (tickNs : Nat) : periodNs tickNs = 256 * tickNs := rfl

/-- The range check of R101 is the only way to no plan. -/
theorem plan_eq_none_iff (tickNs m : Nat) :
    plan tickNs m = none ↔ 65535 * periodNs tickNs < elapsedNs m := by
  rw [plan, Config.maxOvf]
  split
  next h => simp [h]
  next h => simp [h]

theorem plan_of_in_range {tickNs m : Nat} (h : elapsedNs m ≤ 65535 * periodNs tickNs) :
    plan tickNs m = some {
      needed := (rawPlan tickNs (elapsedNs m)).1
      preload := clampPreload (rawPlan tickNs (elapsedNs m)).2 } :=
  if_neg h.not_gt

theorem rawPlan_exact (tickNs : Nat) : rawPlan tickNs (periodNs tickNs) = (1, 0) := by
  simp [rawPlan]

/-- Settles O32: the check of the model in the rule's own units, and at the reference tick. -/
theorem planRangeCheck : Obligations.PlanRangeCheck := by
  have hrange (tickNs m : Nat) : plan tickNs m = none ↔ 256 * tickNs * 65535 < m * 1000000 := by
    rw [plan_eq_none_iff, periodNs_eq, elapsedNs_eq]
    omega
  refine ⟨hrange, fun m => ?_⟩
  rw [hrange]
  omega

/-- Settles O34: one period is in range and is the exact case; 32768000 is no multiple of 1000000. -/
theorem planExactCase : Obligations.PlanExactCase := by
  refine ⟨fun tickNs m _ hexact => ?_, fun m => by omega⟩
  have helapsed : elapsedNs m = periodNs tickNs := by rw [elapsedNs_eq, periodNs_eq, hexact]
  have hin : elapsedNs m ≤ 65535 * periodNs tickNs := by omega
  rw [plan_of_in_range hin, helapsed, rawPlan_exact]
  rfl

end Sys2Proof.Machine

/-! The overflow callback (spec/41_overflow_callback.md, 60_exceptions R186): what every command
does to the subscriber, the invocation of the subscriber, and the interrupt service. -/

namespace Sys2Proof.Machine

/-! ## The subscriber (R130, R132) -/

theorem exec_setcb (val : Byte) (s : State) : exec (.setcb val) s = execSetcb val s := rfl

theorem execSetcb_valid {val : Byte} (h : validSubscriber val) (s : State) :
    execSetcb val s = .next ({ s with cb := val }.complete .ok) := if_pos h

theorem execSetcb_null (s : State) :
    execSetcb 0#8 s = .next (s.complete .invalidArgument) := rfl

theorem execCfgnm_cb {sel : Byte} {ref : FlagRef} {s t : State}
    (h : execCfgnm sel ref s = .next t) : t.cb = s.cb := by
  unfold execCfgnm at h
  split at h
  · cases h; rfl
  · cases h; rfl

theorem execSetcb_cb {val : Byte} {s t : State} (h : execSetcb val s = .next t) :
    t.cb = s.cb ∨ (val ≠ 0#8 ∧ t.cb = val) := by
  unfold execSetcb at h
  split at h
  next hval => cases h; exact .inr ⟨hval, rfl⟩
  next => cases h; exact .inl rfl

theorem execMinit_cb {ref : FlagRef} {s t : State} (h : execMinit ref s = .next t) :
    t.cb = s.cb ∨ t.cb = 1#8 := by
  unfold execMinit at h
  split at h
  · cases h; exact .inl rfl
  · cases h; exact .inr rfl

/-- The entry of a delay leaves the subscriber, whether it starts, is refused or faults. -/
theorem callDelay_cb {m : Nat} {found s t : State} (hmem : found.mem = s.mem)
    (hcb : found.cb = s.cb) (h : callDelay m found s = .next t) : t.cb = s.cb := by
  rcases callDelay_cases m found s t hmem h with
    ⟨_, rfl⟩ | ⟨_, _, ⟨_, rfl⟩ | ⟨_, _, _, rfl⟩ | ⟨_, rfl⟩⟩
  · simp
  · exact hcb
  · simp
  · simp

theorem State.enterSetdc_cb (s : State) (pct : Byte) : (s.enterSetdc pct).cb = s.cb := by
  rcases s.enterSetdc_cases pct with ⟨_, e⟩ | ⟨_, e⟩
  · simp [e]
  · simp [e]

theorem execRot_cb {s t : State} (h : execRot s = .next t) : t.cb = s.cb := by
  unfold execRot at h
  rcases withFlag_cases s.mref s _ with ⟨_, e⟩ | ⟨_, e⟩ | ⟨b, _, e⟩
  case inl => rw [e] at h; cases h; rfl
  case inr.inl => rw [e] at h; cases h
  case inr.inr =>
    rw [e] at h
    split at h
    · cases h; rfl
    · cases h; simp [State.enterSetdc_cb]

/-- Only `SETCB` and `MINIT` write the subscriber, and neither stores the null one. -/
theorem exec_cb_cases {i : Instr} {s t : State} (h : exec i s = .next t) :
    t.cb = s.cb ∨ (∃ val, i = .setcb val ∧ val ≠ 0#8 ∧ t.cb = val)
      ∨ (∃ ref, i = .minit ref ∧ t.cb = 1#8) := by
  cases i with
  | cfgnm sel ref => exact .inl (execCfgnm_cb h)
  | delay ms => exact .inl (callDelay_cb rfl rfl h)
  | setcb val => exact (execSetcb_cb h).imp_right fun hval => .inl ⟨val, rfl, hval⟩
  | minit ref => exact (execMinit_cb h).imp_right fun hone => .inr ⟨ref, rfl, hone⟩
  | chdir side => cases h; exact .inl rfl
  | setdc val => cases h; exact .inl (s.enterSetdc_cb val)
  | rot => exact .inl (execRot_cb h)
  | stop => cases h; exact .inl rfl
  | updsf => cases h; exact .inl rfl

/-- Settles O11: the null subscriber fails the check of R130, any other passes it; and no writer of
the slot stores 0. -/
theorem setcbStoresSubscriber : Obligations.SetcbStoresSubscriber := by
  refine ⟨fun s val hval => ?stores, fun s => ?refuses, fun i s t h hcb => ?keeps⟩
  case stores => rw [exec_setcb, execSetcb_valid hval]; rfl
  case refuses => rw [exec_setcb, execSetcb_null]; rfl
  case keeps =>
    rcases exec_cb_cases h with e | ⟨val, _, hval, e⟩ | ⟨_, _, e⟩
    · rwa [e]
    · rwa [e]
    · rw [e]; decide

/-! ## The invocation of the subscriber (R131) -/

theorem invokeCallback_none {s : State} (h : s.cb = 0#8) : invokeCallback s = s := if_pos h

theorem invokeCallback_stopFlag {s : State} (h : s.cb = 1#8) :
    invokeCallback s = { s with mstop := 1#1, evt := s.evt ++ [.cbInvoke 1#8] } := by
  simp [invokeCallback, h, State.updateStopFlag, State.emit]

theorem invokeCallback_external {s : State} (h : 1#8 < s.cb) :
    invokeCallback s = { s with cbOut := some s.cb, evt := s.evt ++ [.cbInvoke s.cb] } := by
  have h0 : s.cb ≠ 0#8 := by bv_omega
  have h1 : s.cb ≠ 1#8 := by bv_omega
  simp [invokeCallback, h0, h1, State.emit]

/-! ## The interrupt service (R186) -/

theorem takeMove_isr_of_enabled {s : State} (h : s.isrEnabled) : takeMove .isr s = isr s := if_pos h

theorem takeMove_isr_of_disabled {s : State} (h : ¬ s.isrEnabled) :
    takeMove .isr s = .next s := if_neg h

/-- The state in which the service has cleared the latch and counted the overflow. -/
def State.countOverflow (s : State) : State :=
  { s with
    ovfPend := 0#1
    isrCnt := s.isrCnt + 1#16
    evt := s.evt ++ [.isr (s.isrCnt + 1#16)] }

/-- With a byte behind `TREF` the service counts, and at the count or with the flag Up goes on to
serve the overflow. -/
theorem isr_flagAt {s : State} {b : Byte} (hb : s.flagAt s.tref b) :
    isr s = if s.ovfNeeded ≤ s.isrCnt + 1#16 ∨ b ≠ 0#8
      then .next s.countOverflow.serveOverflow else .next s.countOverflow := by
  rw [isr, withFlag_flagAt hb]
  rfl

/-- The state in which the service, at its count or with the flag Up, invokes the subscriber: the
latch cleared, the count back at 0, the timer stopped. -/
def State.overflowReached (s : State) : State :=
  { s with
    ovfPend := 0#1
    isrCnt := 0#16
    tCtrl := s.tCtrl &&& 0xF8#8
    evt := s.evt ++ [.isr (s.isrCnt + 1#16), .regWrite .tCtrl (s.tCtrl &&& 0xF8#8)] }

theorem State.serveOverflow_countOverflow (s : State) :
    s.countOverflow.serveOverflow = invokeCallback s.overflowReached := by
  rw [State.serveOverflow, State.stopTimer_eq]
  simp [State.countOverflow, State.overflowReached]

/-- `ISR_CNT` cannot wrap in the states the block keeps to (40_timer_delay R120). -/
theorem Inv.isrCnt_succ_le {s : State} (h : Inv s) : s.isrCnt.toNat + 1 ≤ 65535 := by
  have hbelow := h.isrBelow
  bv_omega

/-- Settles O27: the service waits for the latch; then the flag read faults, counts, or serves the
overflow, where the subscriber decides the rest. -/
theorem isrServesOverflow : Obligations.IsrServesOverflow := by
  intro s
  refine ⟨fun hblocked => ?waits, fun hpend hfault hnull => ?faults,
    fun hpend hfault hdown hlt => ?counts, fun b hpend hfault hb hdone => ?serves,
    Inv.isrCnt_succ_le⟩
  case waits =>
    have hdisabled : ¬ s.isrEnabled := by
      rintro ⟨hpend, hfault⟩
      rcases hblocked with h | h
      · rw [hpend] at h; exact absurd h (by decide)
      · exact h hfault
    exact takeMove_isr_of_disabled hdisabled
  case faults => rw [takeMove_isr_of_enabled ⟨hpend, hfault⟩, isr, withFlag_null hnull]
  case counts =>
    have hgoesOn : ¬ (s.ovfNeeded ≤ s.isrCnt + 1#16 ∨ (0#8 : Byte) ≠ 0#8) := by simpa using hlt
    rw [takeMove_isr_of_enabled ⟨hpend, hfault⟩, isr_flagAt hdown, if_neg hgoesOn]
    rfl
  case serves =>
    rw [takeMove_isr_of_enabled ⟨hpend, hfault⟩, isr_flagAt hb, if_pos hdone,
      State.serveOverflow_countOverflow]
    refine ⟨fun hcb => ?none, fun hcb => ?stopFlag, fun hcb => ?external⟩
    case none =>
      rw [invokeCallback_none (s := s.overflowReached) hcb]
      rfl
    case stopFlag =>
      rw [invokeCallback_stopFlag (s := s.overflowReached) hcb]
      simp [State.overflowReached]
    case external =>
      rw [invokeCallback_external (s := s.overflowReached) hcb]
      simp [State.overflowReached]

end Sys2Proof.Machine

/-! The motor control layer (spec/42_motor_control.md): the pin writes of `MINIT` and `CHDIR`, and
the test and low phases of the duty-cycle loop. -/

namespace Sys2Proof.Machine

/-! ## The shared operations as one record update -/

theorem State.writePinOut_eq (s : State) (v : Pins) :
    s.writePinOut v = { s with pinOut := v, evt := s.evt ++ [.pinWrite s.pinDir v] } := rfl

theorem State.complete_ok_eq (s : State) :
    s.complete .ok = { s with result := 0#8, evt := s.evt ++ [.result 0#8] } := rfl

/-! ## `MINIT` (R140) -/

theorem exec_minit (ref : FlagRef) (s : State) : exec (.minit ref) s = execMinit ref s := rfl

/-- A reference that a command can carry passes the check of `MINIT`. -/
theorem execMinit_legal {ref : FlagRef} (h : legalRef ref) (s : State) :
    execMinit ref s = .next ({ { s with pinDir := 0b111111#6 }.writePinOut
      ((s.pinOut &&& pwmMask) ||| fwdPattern) with mref := ref, cb := 1#8 }.complete .ok) :=
  if_neg (not_not.2 h)

/-- Settles O12: past the reference check `MINIT` is its pin write, two stores and the result. -/
theorem minitInitialises : Obligations.MinitInitialises := by
  intro s ref href
  rw [exec_minit, execMinit_legal href, State.writePinOut_eq, State.complete_ok_eq]
  simp [pwmMask, fwdPattern]

/-! ## `CHDIR` (R141) -/

/-- `CHDIR` flips the enable pair of its side, whatever the pins are. -/
theorem exec_chdir (d : MotorSide) (s : State) :
    exec (.chdir d) s = .next { s with
      pinOut := s.pinOut ^^^ enMask d
      result := 0#8
      evt := s.evt ++ [.pinWrite s.pinDir (s.pinOut ^^^ enMask d), .result 0#8] } := by
  change Host.Outcome.next ((s.toggleDir d).complete .ok) = _
  rw [State.toggleDir, State.writePinOut_eq, State.complete_ok_eq]
  simp

/-- Flipping the same pins twice restores them. -/
theorem pins_flip_flip (v m : Pins) : v ^^^ m ^^^ m = v := by
  rw [BitVec.xor_assoc, BitVec.xor_self, BitVec.xor_zero]

/-- Settles O13: one `CHDIR` of each side, and the second flip that undoes the first. -/
theorem chdirTogglesOnePair : Obligations.ChdirTogglesOnePair := by
  intro s
  refine ⟨exec_chdir .right s, exec_chdir .left s, fun d t u hfirst hsecond => ?_⟩
  rw [exec_chdir] at hfirst hsecond
  cases hfirst
  cases hsecond
  exact pins_flip_flip s.pinOut (enMask d)

/-! ## The test and low phases of the loop (R144, R146) -/

/-- A loop's step waits for nothing but the fault and the pending interrupt (10_state R41). -/
theorem takeMove_seqStep_setdc {s : State} {pct : Byte} {ph : Phase} {rest : List Frame}
    (hseq : s.seq = .setdc pct ph :: rest) (hfault : s.fault = 0#8) (hpend : s.ovfPend = 0#1) :
    takeMove .seqStep s = seqStep s :=
  takeMove_seqStep_of_enabled (by simp [State.seqEnabled, hseq, hfault, hpend, pollReady])

theorem seqStep_setdcTest {s : State} {pct : Byte} {rest : List Frame}
    (hseq : s.seq = .setdc pct .test :: rest) : seqStep s = setdcTest pct rest s := by
  simp only [seqStep, hseq]

theorem seqStep_setdcLow {s : State} {pct : Byte} {rest : List Frame}
    (hseq : s.seq = .setdc pct .low :: rest) : seqStep s = setdcLow pct rest s := by
  simp only [seqStep, hseq]

/-- With a byte behind `MREF` the loop test drives the pins, or clears `MSTOP` and returns. -/
theorem setdcTest_flagAt {s : State} {b : Byte} (hb : s.flagAt s.mref b) (pct : Byte)
    (rest : List Frame) :
    setdcTest pct rest s = if s.mstop = 0#1 ∧ b = 0#8
      then .next { s.writePinOut (s.pinOut ||| pwmMask) with seq := .setdc pct .on :: rest }
      else .next ({ s with mstop := 0#1 }.ret .ok) := by
  rw [setdcTest, withFlag_flagAt hb]

/-- Settles O22: the flag read faults; otherwise the test drives the pins, or leaves the loop to a
waiting rotate or to the host. -/
theorem loopTestDrivesOrReturns : Obligations.LoopTestDrivesOrReturns := by
  intro s pct rest hseq hfault hpend
  rw [takeMove_seqStep_setdc hseq hfault hpend, seqStep_setdcTest hseq]
  refine ⟨fun hnull => ?faults, fun hdown hrun => ?drives, fun b hb hstop => ?returns⟩
  case faults => rw [setdcTest, withFlag_null hnull]
  case drives =>
    rw [setdcTest_flagAt hdown, if_pos ⟨hrun, rfl⟩, State.writePinOut_eq, pwmMask]
  case returns =>
    have hleaves : ¬ (s.mstop = 0#1 ∧ b = 0#8) := by
      rintro ⟨hrun, hdown⟩
      simp [hrun, hdown] at hstop
    have hseq' : { s with mstop := 0#1 }.seq = .setdc pct .test :: rest := hseq
    rw [setdcTest_flagAt hb, if_neg hleaves]
    refine ⟨fun hcaller => ?_, fun hhost => ?_⟩
    · rw [State.ret_caller hseq' hcaller]
    · subst hhost
      rw [State.ret_last hseq', State.complete_ok_eq]

theorem not_pwmMask : ~~~pwmMask = 0b011011#6 := rfl

/-- Settles O24: the low phase is one pin write and the next phase, with no flag read before it. -/
theorem lowPhaseLowersPwmPins : Obligations.LowPhaseLowersPwmPins := by
  intro s pct rest hseq hfault hpend
  rw [takeMove_seqStep_setdc hseq hfault hpend, seqStep_setdcLow hseq, setdcLow,
    State.writePinOut_eq, not_pwmMask]

end Sys2Proof.Machine


/-! The sudden-stop flag (spec/43_sudden_stop.md): what the environment's write of a flag cell
changes, and that the block's references see it. -/

namespace Sys2Proof.Machine

/-! ## `MemRead` after `MemWrite` (20_memory R62, R63) -/

theorem Memory.read_write_same {m : Memory} {k : Nat} (v : Byte) (w : m.wf = true)
    (hk : k < Config.nFlagCells) : (m.write k v).read k = some v := by
  rw [Memory.read_of_lt hk, Memory.lookup_write_same w]

/-- An index of no cell reads as before too, since no write makes a cell. -/
theorem Memory.read_write_other {m : Memory} {j k : Nat} (v : Byte) (h : j ≠ k) :
    (m.write k v).read j = m.read j := by
  rw [Memory.read, Memory.read, Memory.lookup_write_other h]

/-- Reference `k + 1` names cell `k` (20_memory R64). -/
theorem flagAt_of_read {s : State} {ref : FlagRef} {k : Nat} {b : Byte}
    (href : ref.toNat = k + 1) (hread : s.mem.read k = some b) : s.flagAt ref b := by
  have hnamed : ref ≠ 0#2 := by
    rintro rfl
    exact Nat.succ_ne_zero k href.symm
  have hcell : ref.toNat - 1 = k := by omega
  exact ⟨hnamed, hcell ▸ hread⟩

/-! ## `EnvWrite` (R170) -/

/-- The environment's write has no guard. -/
theorem takeMove_envWrite (k : Fin 2) (v : BitVec 1) (s : State) :
    takeMove (.envWrite k v) s = .next (s.envWrite k v) := rfl

theorem State.envWrite_frame (s : State) (k : Fin 2) (v : BitVec 1) :
    { s.envWrite k v with mem := s.mem } = s := rfl

/-- Settles O28: the written cell reads back, directly and so through its reference; the other cells
are those of `Memory.write`'s frame, and the rest is the frame of `EnvWrite`. -/
theorem envWriteChangesOneCell : Obligations.EnvWriteChangesOneCell := by
  intro s k v hwf
  have hread : (s.envWrite k v).mem.read k.val = some (v.setWidth 8) :=
    Memory.read_write_same (levelByte v) hwf k.isLt
  have hother : ∀ j : Nat, j ≠ k.val → (s.envWrite k v).mem.read j = s.mem.read j :=
    fun _ hj => Memory.read_write_other (levelByte v) hj
  exact ⟨s.envWrite k v, takeMove_envWrite k v s, hread, hother,
    fun _ href => flagAt_of_read href hread, s.envWrite_frame k v⟩

end Sys2Proof.Machine

/-! The encoding (spec/30_encoding.md): the number of a word, the rows of the opcode table, and the
round trips between commands and words. -/

namespace Sys2Proof

/-! ## The fields of a word as digits of its number (30_encoding R81, R82) -/

theorem opcodeOf_toNat (w : CmdWord) : (opcodeOf w).toNat = w.toNat / 2 ^ 32 := by
  rw [opcodeOf, BitVec.extractLsb'_toNat, Nat.shiftRight_eq_div_pow]
  omega

theorem lowByteOf_toNat (w : CmdWord) : (lowByteOf w).toNat = w.toNat % 2 ^ 8 := by
  rw [lowByteOf, BitVec.extractLsb'_toNat, Nat.shiftRight_zero]

theorem refOfC_toNat (w : CmdWord) : (refOfC w).toNat = w.toNat / 2 ^ 8 % 2 ^ 2 := by
  rw [refOfC, BitVec.extractLsb'_toNat, Nat.shiftRight_eq_div_pow]

theorem refOfR_toNat (w : CmdWord) : (refOfR w).toNat = w.toNat % 2 ^ 2 := by
  rw [refOfR, BitVec.extractLsb'_toNat, Nat.shiftRight_zero]

theorem msOf_toNat (w : CmdWord) : (msOf w).toNat = w.toNat % 2 ^ 32 := by
  rw [msOf, BitVec.extractLsb'_toNat, Nat.shiftRight_zero]

theorem sideBit_sideOf_toNat (w : CmdWord) : (sideBit (sideOf w)).toNat = w.toNat % 2 := by
  have hbit : sideBit (sideOf w) = w.extractLsb' 0 1 := by
    unfold sideOf
    generalize w.extractLsb' 0 1 = b
    revert b; decide
  rw [hbit, BitVec.extractLsb'_toNat, Nat.shiftRight_zero]

theorem sideBit_injective : Function.Injective sideBit := by
  intro a b; cases a <;> cases b <;> decide

/-! ## The rows of the opcode table (R84, R85) -/

/-- A row's mask keeps the bits above its operand field. -/
theorem and_rowMask_eq_iff (w bits : CmdWord) (n : Nat) :
    w &&& BitVec.allOnes 40 <<< n = bits ↔ w.toNat / 2 ^ n * 2 ^ n = bits.toNat := by
  have hle : w.toNat / 2 ^ n * 2 ^ n ≤ w.toNat := Nat.div_mul_le_self _ _
  have hlt := w.isLt
  rw [← BitVec.shiftLeft_ushiftRight, ← BitVec.toNat_inj, BitVec.toNat_shiftLeft,
    BitVec.toNat_ushiftRight, Nat.shiftLeft_eq, Nat.shiftRight_eq_div_pow,
    Nat.mod_eq_of_lt (hle.trans_lt hlt)]

theorem selected_eq_ok_iff {w mask bits : CmdWord} {i j : Instr} (n : Nat)
    (hmask : mask = BitVec.allOnes 40 <<< n) :
    selected w mask bits i = .ok j ↔ w.toNat / 2 ^ n * 2 ^ n = bits.toNat ∧ i = j := by
  rw [← and_rowMask_eq_iff, ← hmask, selected]
  split
  next h => simp [h]
  next h => simp [h]

theorem refChecked_eq_ok_iff {ref : FlagRef} {d : Except Reserved Instr} {i : Instr} :
    refChecked ref d = .ok i ↔ d = .ok i ∧ legalRef ref := by
  unfold refChecked
  split
  next => simp
  next =>
    split
    next h => simp [h]
    next h => simp [h]

theorem refChecked_eq_error_iff {ref : FlagRef} {d : Except Reserved Instr} :
    (∃ r, refChecked ref d = .error r) ↔ (∃ r, d = .error r) ∨ ref = 3#2 := by
  unfold refChecked
  split
  next => simp
  next =>
    split
    next h => simp [h]
    next h => simp [h]

/-! ## The number of a command's word (R81 to R84) -/

/-- The number of a command's word: the opcode above the operands' digits. -/
def Instr.wordNumber : Instr → Nat
  | .cfgnm sel ref => 1 * 2 ^ 32 + ref.toNat * 2 ^ 8 + sel.toNat
  | .delay ms => 2 * 2 ^ 32 + ms.toNat
  | .setcb val => 3 * 2 ^ 32 + val.toNat
  | .minit ref => 4 * 2 ^ 32 + ref.toNat
  | .chdir side => 5 * 2 ^ 32 + (sideBit side).toNat
  | .setdc val => 6 * 2 ^ 32 + val.toNat
  | .rot => 7 * 2 ^ 32
  | .stop => 8 * 2 ^ 32
  | .updsf => 9 * 2 ^ 32

/-- A field placed below the lowest 1 of a word is added to it. -/
theorem or_placed_toNat {n lo : Nat} (hdr : CmdWord) (v : BitVec n) (hfits : n + lo ≤ 40)
    (hfree : 2 ^ (n + lo) ∣ hdr.toNat) :
    (hdr ||| placed v lo).toNat = hdr.toNat + v.toNat * 2 ^ lo := by
  have hv : v.toNat * 2 ^ lo < 2 ^ (n + lo) := by
    rw [pow_add]
    exact Nat.mul_lt_mul_of_pos_right v.isLt (Nat.two_pow_pos lo)
  have h40 : 2 ^ (n + lo) ≤ 2 ^ 40 := Nat.pow_le_pow_right (by decide) hfits
  have hn : 2 ^ n ≤ 2 ^ 40 := Nat.pow_le_pow_right (by decide) (by omega)
  obtain ⟨a, ha⟩ := hfree
  rw [BitVec.toNat_or, placed, BitVec.toNat_shiftLeft, BitVec.toNat_setWidth,
    Nat.mod_eq_of_lt (v.isLt.trans_le hn), Nat.shiftLeft_eq, Nat.mod_eq_of_lt (hv.trans_le h40), ha,
    Nat.two_pow_add_eq_or_of_lt hv]

/-- The same for a field at bit 0. -/
theorem or_placed_zero_toNat {n : Nat} (hdr : CmdWord) (v : BitVec n) (hfits : n ≤ 40)
    (hfree : 2 ^ n ∣ hdr.toNat) : (hdr ||| placed v 0).toNat = hdr.toNat + v.toNat := by
  simpa using or_placed_toNat (lo := 0) hdr v hfits hfree

theorem encode_toNat (i : Instr) : (encode i).toNat = i.wordNumber := by
  cases i with
  | cfgnm sel ref =>
    have hhigh : (0x0100000000#40 ||| placed ref 8).toNat = 1 * 2 ^ 32 + ref.toNat * 2 ^ 8 :=
      or_placed_toNat 0x0100000000#40 ref (by decide) (by decide)
    have hfree : 2 ^ 8 ∣ (0x0100000000#40 ||| placed ref 8).toNat := by
      rw [hhigh]; omega
    rw [encode, or_placed_zero_toNat _ sel (by decide) hfree, hhigh, Instr.wordNumber]
  | delay ms => exact or_placed_zero_toNat 0x0200000000#40 ms (by decide) (by decide)
  | setcb val => exact or_placed_zero_toNat 0x0300000000#40 val (by decide) (by decide)
  | minit ref => exact or_placed_zero_toNat 0x0400000000#40 ref (by decide) (by decide)
  | chdir side => exact or_placed_zero_toNat 0x0500000000#40 (sideBit side) (by decide) (by decide)
  | setdc val => exact or_placed_zero_toNat 0x0600000000#40 val (by decide) (by decide)
  | rot => rfl
  | stop => rfl
  | updsf => rfl

/-! ## Decoding reads the number of the word back -/

/-- A word that decodes is the word of a well-formed command. -/
theorem wordNumber_of_decode {w : CmdWord} {i : Instr} (h : decode w = .ok i) :
    i.wellFormed = true ∧ w.toNat = i.wordNumber := by
  unfold decode at h
  split at h
  case h_1 =>
    obtain ⟨hsel, hlegal⟩ := refChecked_eq_ok_iff.1 h
    obtain ⟨hbits, rfl⟩ := (selected_eq_ok_iff 10 rfl).1 hsel
    refine ⟨decide_eq_true hlegal, ?_⟩
    rw [Instr.wordNumber, refOfC_toNat, lowByteOf_toNat]
    rw [BitVec.toNat_ofNat] at hbits
    omega
  case h_2 =>
    obtain ⟨hbits, rfl⟩ := (selected_eq_ok_iff 32 rfl).1 h
    refine ⟨rfl, ?_⟩
    rw [Instr.wordNumber, msOf_toNat]
    rw [BitVec.toNat_ofNat] at hbits
    omega
  case h_3 | h_6 =>
    obtain ⟨hbits, rfl⟩ := (selected_eq_ok_iff 8 rfl).1 h
    refine ⟨rfl, ?_⟩
    rw [Instr.wordNumber, lowByteOf_toNat]
    rw [BitVec.toNat_ofNat] at hbits
    omega
  case h_4 =>
    obtain ⟨hsel, hlegal⟩ := refChecked_eq_ok_iff.1 h
    obtain ⟨hbits, rfl⟩ := (selected_eq_ok_iff 2 rfl).1 hsel
    refine ⟨decide_eq_true hlegal, ?_⟩
    rw [Instr.wordNumber, refOfR_toNat]
    rw [BitVec.toNat_ofNat] at hbits
    omega
  case h_5 =>
    obtain ⟨hbits, rfl⟩ := (selected_eq_ok_iff 1 rfl).1 h
    refine ⟨rfl, ?_⟩
    rw [Instr.wordNumber, sideBit_sideOf_toNat]
    rw [BitVec.toNat_ofNat] at hbits
    omega
  case h_7 | h_8 | h_9 =>
    obtain ⟨hbits, rfl⟩ := (selected_eq_ok_iff 0 rfl).1 h
    exact ⟨rfl, by simpa [Instr.wordNumber] using hbits⟩
  case h_10 => cases h

/-- The word of a well-formed command decodes to it. -/
theorem decode_of_wordNumber {w : CmdWord} {i : Instr} (hwf : i.wellFormed = true)
    (hnum : w.toNat = i.wordNumber) : decode w = .ok i := by
  cases i with
  | cfgnm sel ref =>
    have hlegal : legalRef ref := of_decide_eq_true hwf
    have hsel := sel.isLt
    have href := ref.isLt
    rw [Instr.wordNumber] at hnum
    have hop : (opcodeOf w).toNat = 1 := by rw [opcodeOf_toNat]; omega
    have efref : refOfC w = ref := BitVec.eq_of_toNat_eq (by rw [refOfC_toNat]; omega)
    have efsel : lowByteOf w = sel := BitVec.eq_of_toNat_eq (by rw [lowByteOf_toNat]; omega)
    rw [decode, hop, efref, efsel]
    refine refChecked_eq_ok_iff.2 ⟨(selected_eq_ok_iff 10 rfl).2 ⟨?_, rfl⟩, hlegal⟩
    rw [BitVec.toNat_ofNat]
    omega
  | delay ms =>
    have hlt := ms.isLt
    rw [Instr.wordNumber] at hnum
    have hop : (opcodeOf w).toNat = 2 := by rw [opcodeOf_toNat]; omega
    have hfield : msOf w = ms := BitVec.eq_of_toNat_eq (by rw [msOf_toNat]; omega)
    rw [decode, hop, hfield]
    refine (selected_eq_ok_iff 32 rfl).2 ⟨?_, rfl⟩
    rw [BitVec.toNat_ofNat]
    omega
  | setcb val =>
    have hlt := val.isLt
    rw [Instr.wordNumber] at hnum
    have hop : (opcodeOf w).toNat = 3 := by rw [opcodeOf_toNat]; omega
    have hfield : lowByteOf w = val := BitVec.eq_of_toNat_eq (by rw [lowByteOf_toNat]; omega)
    rw [decode, hop, hfield]
    refine (selected_eq_ok_iff 8 rfl).2 ⟨?_, rfl⟩
    rw [BitVec.toNat_ofNat]
    omega
  | minit ref =>
    have hlegal : legalRef ref := of_decide_eq_true hwf
    have hlt := ref.isLt
    rw [Instr.wordNumber] at hnum
    have hop : (opcodeOf w).toNat = 4 := by rw [opcodeOf_toNat]; omega
    have hfield : refOfR w = ref := BitVec.eq_of_toNat_eq (by rw [refOfR_toNat]; omega)
    rw [decode, hop, hfield]
    refine refChecked_eq_ok_iff.2 ⟨(selected_eq_ok_iff 2 rfl).2 ⟨?_, rfl⟩, hlegal⟩
    rw [BitVec.toNat_ofNat]
    omega
  | chdir side =>
    have hlt := (sideBit side).isLt
    rw [Instr.wordNumber] at hnum
    have hop : (opcodeOf w).toNat = 5 := by rw [opcodeOf_toNat]; omega
    have hfield : sideOf w = side :=
      sideBit_injective (BitVec.eq_of_toNat_eq (by rw [sideBit_sideOf_toNat]; omega))
    rw [decode, hop, hfield]
    refine (selected_eq_ok_iff 1 rfl).2 ⟨?_, rfl⟩
    rw [BitVec.toNat_ofNat]
    omega
  | setdc val =>
    have hlt := val.isLt
    rw [Instr.wordNumber] at hnum
    have hop : (opcodeOf w).toNat = 6 := by rw [opcodeOf_toNat]; omega
    have hfield : lowByteOf w = val := BitVec.eq_of_toNat_eq (by rw [lowByteOf_toNat]; omega)
    rw [decode, hop, hfield]
    refine (selected_eq_ok_iff 8 rfl).2 ⟨?_, rfl⟩
    rw [BitVec.toNat_ofNat]
    omega
  | rot | stop | updsf =>
    rw [decode, opcodeOf_toNat, hnum]
    exact (selected_eq_ok_iff 0 rfl).2 ⟨by simpa [Instr.wordNumber] using hnum, rfl⟩

/-- Settles O1: the word's number has the opcode and the operands as its digits. -/
theorem decodeAfterEncode : Obligations.DecodeAfterEncode := by
  intro i hwf
  exact decode_of_wordNumber hwf (encode_toNat i)

/-- Settles O2: a word is determined by its number. -/
theorem encodeAfterDecode : Obligations.EncodeAfterDecode := by
  intro w i h
  obtain ⟨hwf, hnum⟩ := wordNumber_of_decode h
  exact ⟨hwf, BitVec.eq_of_toNat_eq ((encode_toNat i).trans hnum.symm)⟩

/-- The bits `n` to `n + d - 1` of a number are 0 exactly when cutting it below bit `n` and below
bit `n + d` leaves the same. -/
theorem cut_eq_cut_iff (a n d : Nat) :
    a / 2 ^ n * 2 ^ n = a / 2 ^ (n + d) * 2 ^ (n + d) ↔ a / 2 ^ n % 2 ^ d = 0 := by
  have hq := Nat.div_add_mod (a / 2 ^ n) (2 ^ d)
  have hcut : a / 2 ^ (n + d) * 2 ^ (n + d) = 2 ^ d * (a / 2 ^ n / 2 ^ d) * 2 ^ n := by
    rw [Nat.div_div_eq_div_mul, ← pow_add]
    ring
  rw [hcut, Nat.mul_left_inj (Nat.two_pow_pos n).ne']
  omega

/-- In a word with the row's opcode, a row with `n` operand bits refuses exactly the words with a
reserved bit set. -/
theorem selected_eq_error_iff {w mask bits : CmdWord} {i : Instr} (n : Nat) (hn : n ≤ 32)
    (hmask : mask = BitVec.allOnes 40 <<< n) (hrow : w.toNat / 2 ^ 32 * 2 ^ 32 = bits.toNat) :
    (∃ r, selected w mask bits i = .error r) ↔ w.extractLsb' n (32 - n) ≠ 0#(32 - n) := by
  have hbits : w &&& mask = bits ↔ w.extractLsb' n (32 - n) = 0#(32 - n) := by
    have hcut := cut_eq_cut_iff w.toNat n (32 - n)
    rw [Nat.add_sub_cancel' hn, hrow] at hcut
    rw [hmask, and_rowMask_eq_iff, hcut, ← BitVec.toNat_inj, BitVec.extractLsb'_toNat,
      Nat.shiftRight_eq_div_pow, BitVec.toNat_zero]
  rw [ne_eq, ← hbits, selected]
  split
  next h => simp [h]
  next h => simp [h]

/-- The opcode as the field that the rules name and as the word's leading digit. -/
theorem opcode_of_toNat {w : CmdWord} {k : Nat} (h : (opcodeOf w).toNat = k) :
    w.extractLsb' 32 8 = BitVec.ofNat 8 k ∧ w.toNat / 2 ^ 32 = k := by
  rw [← h]
  exact ⟨(BitVec.ofNat_toNat 8 (opcodeOf w) ▸ BitVec.setWidth_eq _).symm, (opcodeOf_toNat w).symm⟩

/-- Settles O3, opcode by opcode: a row refuses a word for a reserved bit or for the reference
code 3. -/
theorem reservedWordsAreExactly : Obligations.ReservedWordsAreExactly := by
  intro w
  unfold decode
  split
  case h_1 =>
    obtain ⟨hop, hrow⟩ := opcode_of_toNat ‹_›
    simp only [hop, BitVec.reduceEq, BitVec.reduceLT, false_and, true_and, false_or, or_false]
    exact refChecked_eq_error_iff.trans (or_congr_left (selected_eq_error_iff 10 (by decide) rfl
      (by rw [hrow]; rfl)))
  case h_2 =>
    obtain ⟨hop, hrow⟩ := opcode_of_toNat ‹_›
    simp only [hop, BitVec.reduceEq, BitVec.reduceLT, false_and, or_false]
    exact (selected_eq_error_iff 32 (by decide) rfl (by rw [hrow]; rfl)).trans (by simp)
  case h_3 | h_6 =>
    obtain ⟨hop, hrow⟩ := opcode_of_toNat ‹_›
    simp only [hop, BitVec.reduceEq, BitVec.reduceLT, false_and, true_and, false_or, or_false]
    exact selected_eq_error_iff 8 (by decide) rfl (by rw [hrow]; rfl)
  case h_4 =>
    obtain ⟨hop, hrow⟩ := opcode_of_toNat ‹_›
    simp only [hop, BitVec.reduceEq, BitVec.reduceLT, false_and, true_and, false_or, or_false]
    exact refChecked_eq_error_iff.trans (or_congr_left (selected_eq_error_iff 2 (by decide) rfl
      (by rw [hrow]; rfl)))
  case h_5 =>
    obtain ⟨hop, hrow⟩ := opcode_of_toNat ‹_›
    simp only [hop, BitVec.reduceEq, BitVec.reduceLT, false_and, true_and, false_or, or_false]
    exact selected_eq_error_iff 1 (by decide) rfl (by rw [hrow]; rfl)
  case h_7 | h_8 | h_9 =>
    obtain ⟨hop, hrow⟩ := opcode_of_toNat ‹_›
    simp only [hop, BitVec.reduceEq, BitVec.reduceLT, false_and, true_and, false_or, or_false]
    exact selected_eq_error_iff 0 (by decide) rfl (by rw [hrow]; rfl)
  case h_10 =>
    simp only [Except.error.injEq, exists_eq', true_iff]
    have hop : (opcodeOf w).toNat = (w.extractLsb' 32 8).toNat := rfl
    have hreserved : w.extractLsb' 32 8 = 0x00#8 ∨ 0x09#8 < w.extractLsb' 32 8 := by
      simp only [imp_false, hop] at *
      bv_omega
    exact hreserved.imp_right .inl

/-- Settles O4, word by word. -/
theorem exampleWordsDecode : Obligations.ExampleWordsDecode := by
  refine ⟨?_, ?_, ?_, ?_, ?_, ?_, ?_, ?_, ?_, ?_, ?_, ?_, ?_, ?_, ?_, ?_, ?_⟩ <;> rfl

end Sys2Proof

/-! The plan arithmetic (spec/40_timer_delay.md R100 to R109, spec/42_motor_control.md R148): the
two roundings, the three cases of the plan, and what they add up to. -/

namespace Sys2Proof.Machine

/-! ## The roundings (00_scope R14) and the clamp (R105) -/

/-- The ceiling is the least multiple that holds the number. -/
theorem le_mul_cdiv {b : Nat} (hb : 0 < b) (a : Nat) : a ≤ b * cdiv a b ∧ b * cdiv a b < a + b := by
  have hlt : a + b - 1 < b * cdiv a b + b := Nat.lt_mul_div_succ (a + b - 1) hb
  have hle : b * cdiv a b ≤ a + b - 1 := Nat.mul_div_le (a + b - 1) b
  omega

/-- Rounding to the nearest multiple is off by at most half of it. -/
theorem mul_rhu_near {b : Nat} (hb : 0 < b) (a : Nat) :
    2 * (b * rhu a b) ≤ 2 * a + b ∧ 2 * a < 2 * (b * rhu a b) + b := by
  have hlt : 2 * a + b < 2 * b * rhu a b + 2 * b := Nat.lt_mul_div_succ (2 * a + b) (by omega)
  have hle : 2 * b * rhu a b ≤ 2 * a + b := Nat.mul_div_le (2 * a + b) (2 * b)
  rw [Nat.mul_assoc] at hlt hle
  omega

/-- The clamp keeps the first interval at least one tick long. -/
theorem clampPreload_add_max {x : Nat} (h : x ≤ 256) : clampPreload (256 - x) + max x 1 = 256 := by
  unfold clampPreload
  omega

/-! ## The three cases of a plan (R102 to R104) -/

theorem rawPlan_short {tickNs e : Nat} (h : e < 256 * tickNs) :
    rawPlan tickNs e = (1, 256 - e / tickNs) := by
  have htick : 0 < tickNs := by omega
  have hceil := le_mul_cdiv htick (256 * tickNs - e)
  have hfloor := Nat.div_mul_le_self e tickNs
  have hrest := Nat.lt_div_mul_add htick (a := e)
  have hcdiv : cdiv (256 * tickNs - e) tickNs = 256 - e / tickNs := by
    generalize cdiv (256 * tickNs - e) tickNs = c at hceil ⊢
    generalize e / tickNs = q at hfloor hrest ⊢
    have hup : c + q < 257 := by nlinarith [Nat.sub_add_cancel h.le]
    have hlo : 255 < c + q := by nlinarith [Nat.sub_add_cancel h.le]
    omega
  rw [rawPlan, periodNs_eq, if_pos h, hcdiv]

/-- The long case: `n` periods, the first one cut to the rounded remainder. -/
theorem rawPlan_long {tickNs e : Nat} (h : 256 * tickNs < e) :
    rawPlan tickNs e = (cdiv e (256 * tickNs),
      256 - rhu (e - 256 * tickNs * (cdiv e (256 * tickNs) - 1)) tickNs) := by
  rw [rawPlan, periodNs_eq, if_neg h.not_gt, if_neg h.ne']

/-- A plan with its case, its number of overflows and the length of its first interval. -/
theorem plan_cases {tickNs m : Nat} {p : Plan} (htick : 0 < tickNs)
    (h : plan tickNs m = some p) :
    (m * 1000000 < 256 * tickNs ∧ p.needed = 1
        ∧ p.preload + max (m * 1000000 / tickNs) 1 = 256)
      ∨ (m * 1000000 = 256 * tickNs ∧ p.needed = 1 ∧ p.preload = 0)
      ∨ (256 * tickNs < m * 1000000 ∧ 2 ≤ p.needed ∧ p.needed ≤ 65535
        ∧ 256 * tickNs * (p.needed - 1) < m * 1000000
        ∧ m * 1000000 ≤ 256 * tickNs * p.needed
        ∧ p.preload + max (rhu (m * 1000000 - 256 * tickNs * (p.needed - 1)) tickNs) 1 = 256) := by
  have hrange : m * 1000000 ≤ 65535 * (256 * tickNs) := by
    by_contra hout
    rw [(plan_eq_none_iff tickNs m).2 (by rw [elapsedNs_eq, periodNs_eq]; omega)] at h
    cases h
  rw [plan_of_in_range (by rwa [elapsedNs_eq, periodNs_eq]), elapsedNs_eq] at h
  generalize m * 1000000 = e at *
  rcases lt_trichotomy e (256 * tickNs) with hshort | hexact | hlong
  · rw [rawPlan_short hshort] at h
    cases h
    have hlt : e / tickNs < 256 := Nat.div_lt_of_lt_mul (by rwa [Nat.mul_comm])
    exact .inl ⟨hshort, rfl, clampPreload_add_max hlt.le⟩
  · rw [hexact, ← periodNs_eq, rawPlan_exact] at h
    cases h
    exact .inr (.inl ⟨hexact, rfl, rfl⟩)
  · rw [rawPlan_long hlong] at h
    cases h
    obtain ⟨hle, hlt⟩ := le_mul_cdiv (by omega : 0 < 256 * tickNs) e
    dsimp only
    generalize cdiv e (256 * tickNs) = n at *
    have hn2 : 2 ≤ n := by
      by_contra hn
      have := Nat.mul_le_mul_left (256 * tickNs) (by omega : n ≤ 1)
      omega
    have hpred : 256 * tickNs * (n - 1) + 256 * tickNs = 256 * tickNs * n := by
      rw [← Nat.mul_succ]; congr 1; omega
    have hnmax : n ≤ 65535 := by
      by_contra hn
      have := Nat.mul_le_mul_left (256 * tickNs) (by omega : 65535 ≤ n - 1)
      omega
    have hround : rhu (e - 256 * tickNs * (n - 1)) tickNs ≤ 256 := by
      have hnear := (mul_rhu_near htick (e - 256 * tickNs * (n - 1))).1
      generalize rhu (e - 256 * tickNs * (n - 1)) tickNs = x at *
      by_contra hx
      have := Nat.mul_le_mul_left tickNs (by omega : 257 ≤ x)
      omega
    exact .inr (.inr ⟨hlong, hn2, hnmax, by omega, hle, clampPreload_add_max hround⟩)

/-- Settles O33: the short and the long case of the plan. -/
theorem planShortAndLongCase : Obligations.PlanShortAndLongCase := by
  intro tickNs m p htick h
  rcases plan_cases htick h with ⟨hshort, hn, hp⟩ | ⟨hexact, _, _⟩
    | ⟨hlong, hn, _, hlow, hhigh, hp⟩
  · exact ⟨fun _ => ⟨hn, hp⟩, fun hlong => absurd hlong hshort.not_gt⟩
  · exact ⟨fun hshort => absurd hexact hshort.ne, fun hlong => absurd hexact hlong.ne'⟩
  · exact ⟨fun hshort => absurd hshort hlong.not_gt, fun _ => ⟨hn, hlow, hhigh, hp⟩⟩

/-- Settles O35, case by case. -/
theorem planBounds : Obligations.PlanBounds := by
  intro tickNs m p htick h
  rcases plan_cases htick h with ⟨_, hn, hp⟩ | ⟨_, hn, hp⟩ | ⟨_, hn, hmax, _, _, hp⟩
  · omega
  · omega
  · omega

/-- A plan's ticks: full periods but for the first interval, whose length is `f`. -/
theorem Plan.totalTicks_eq {p : Plan} {f : Nat} (h : p.preload + f = 256) :
    p.totalTicks = 256 * (p.needed - 1) + f := by
  rw [Plan.totalTicks, ← h, Nat.add_sub_cancel_left]

/-- Settles O36: the floor of the short case and the rounding of the long case lose less than a
tick, and only the clamp to one tick at `m` = 0 adds a whole one. -/
theorem planWithinOneTick : Obligations.PlanWithinOneTick := by
  intro tickNs m p htick h
  rcases plan_cases htick h with ⟨_, hn, hp⟩ | ⟨hexact, hn, hp⟩ | ⟨_, _, _, hlow, _, hp⟩
  case inl =>
    have hfloor := Nat.mul_div_le (m * 1000000) tickNs
    have hrest := Nat.lt_mul_div_succ (m * 1000000) htick
    rw [Nat.mul_succ tickNs] at hrest
    rw [Plan.totalTicks_eq hp, hn, Nat.sub_self, Nat.mul_zero, Nat.zero_add]
    rcases Nat.eq_zero_or_pos (m * 1000000 / tickNs) with hzero | hpos
    · rw [hzero] at hrest ⊢
      rw [Nat.zero_max, Nat.mul_one]
      omega
    · rw [Nat.max_eq_left hpos]
      omega
  case inr.inl =>
    rw [Plan.totalTicks, hn, hp, hexact]
    omega
  case inr.inr =>
    have hnear := mul_rhu_near htick (m * 1000000 - 256 * tickNs * (p.needed - 1))
    have hperiods : tickNs * (256 * (p.needed - 1)) = 256 * tickNs * (p.needed - 1) := by ring
    rw [Plan.totalTicks_eq hp, Nat.mul_add, hperiods]
    generalize rhu (m * 1000000 - 256 * tickNs * (p.needed - 1)) tickNs = x at hnear ⊢
    rcases Nat.eq_zero_or_pos x with rfl | hpos
    · rw [Nat.zero_max, Nat.mul_one]
      omega
    · rw [Nat.max_eq_left hpos]
      omega

/-- Settles O37: the two cases of the reference tick, with the common factor 8000 taken out. -/
theorem planReferenceClosedForms : Obligations.PlanReferenceClosedForms := by
  constructor
  · intro m hm
    rw [plan_of_in_range (by rw [elapsedNs_eq, periodNs_eq]; omega), elapsedNs_eq,
      rawPlan_short (by omega), clampPreload]
    congr 4
    omega
  · intro m hlow hhigh
    have hn : cdiv (m * 1000000) (256 * 128000) = (125 * m + 4095) / 4096 := by
      unfold cdiv; omega
    rw [plan_of_in_range (by rw [elapsedNs_eq, periodNs_eq]; omega), elapsedNs_eq,
      rawPlan_long (by omega), clampPreload, hn]
    congr 4
    unfold rhu
    omega

/-- Settles O38. -/
theorem dutyTicksSumToPeriod : Obligations.DutyTicksSumToPeriod := by
  intro pct hpct
  have hle : pct.toNat ≤ 100 := hpct
  unfold offTicks onTicks Config.periodTime
  refine ⟨rfl, by omega, fun hlow => ?_, fun hfull => ?_⟩
  · have hlt : pct.toNat < 10 := hlow
    omega
  · rw [hfull]
    rfl

end Sys2Proof.Machine

/-! The accept-time part of the commands (spec/40_timer_delay.md R112, spec/42_motor_control.md
sections 2 to 5): the answers of `DELAY`, `SETDC`, `ROT`, `STOP` and `UPDSF`, and the frame of every
command. -/

namespace Sys2Proof.Machine

/-! ## The entry of a delay (R112) -/

theorem exec_delay (ms : Millis) (s : State) : exec (.delay ms) s = callDelay ms.toNat s s := rfl

theorem callDelay_outOfRange {m : Nat} {s : State} (h : plan s.params.tickNs m = none)
    (found : State) : callDelay m found s = .next (s.returnToCaller .rangeExceeded) := by
  simp only [callDelay, h]

theorem callDelay_null {m : Nat} {s : State} {p : Plan} (h : plan s.params.tickNs m = some p)
    (hnull : s.tref = 0#2) (found : State) :
    callDelay m found s = .next { found with fault := 1#8 } := by
  simp only [callDelay, h, withFlag_null hnull]

theorem callDelay_up {m : Nat} {found s : State} {p : Plan} {b : Byte}
    (h : plan s.params.tickNs m = some p) (hb : found.flagAt s.tref b) (hup : b ≠ 0#8) :
    callDelay m found s = .next (s.returnToCaller .aborted) := by
  simp only [callDelay, h, withFlag_flagAt hb, ne_eq, hup, not_false_eq_true, if_true]

theorem callDelay_down {m : Nat} {found s : State} {p : Plan}
    (h : plan s.params.tickNs m = some p) (hb : found.flagAt s.tref 0#8) :
    callDelay m found s = .next (s.startDelay p) := by
  simp only [callDelay, h, withFlag_flagAt hb, ne_eq, not_true_eq_false, if_false]

/-- The start of a delay as one record update. -/
theorem State.startDelay_eq (s : State) (p : Plan) :
    s.startDelay p = { s with
      tCtrl := 0x05#8
      tCnt := BitVec.ofNat 8 p.preload
      ovfNeeded := BitVec.ofNat 16 p.needed
      seq := .dpoll 0#16 :: s.seq
      evt := s.evt ++ [.regWrite .tCtrl 0x00#8, .regWrite .tCnt (BitVec.ofNat 8 p.preload),
        .regWrite .tCtrl 0x05#8] } := by
  have hctrl : setCs 0x00#8 Config.delayPrescalerCode = 0x05#8 := rfl
  simp [State.startDelay, State.writeTCtrl, State.writeTCnt, State.push, State.emit, hctrl]

/-- Settles O16. -/
theorem delayStartsTimer : Obligations.DelayStartsTimer := by
  intro s ms p hplan hdown
  rw [exec_delay, callDelay_down hplan hdown, State.startDelay_eq]

/-- Settles O17: the range comes before the reference, the reference before the flag. -/
theorem delayRefusals : Obligations.DelayRefusals := by
  intro s ms hidle
  have hinRange : ms.toNat * 1000000 ≤ 256 * s.params.tickNs * 65535 →
      ∃ p, plan s.params.tickNs ms.toNat = some p := fun hle =>
    Option.ne_none_iff_exists'.1 fun hnone => hle.not_gt ((planRangeCheck.1 _ _).1 hnone)
  refine ⟨fun hout => ?_, fun hin hnull => ?_, fun b hin hb hup => ?_⟩
  · rw [exec_delay, callDelay_outOfRange ((planRangeCheck.1 _ _).2 hout),
      State.returnToCaller_idle hidle]
    rfl
  · obtain ⟨p, hplan⟩ := hinRange hin
    rw [exec_delay, callDelay_null hplan hnull]
  · obtain ⟨p, hplan⟩ := hinRange hin
    rw [exec_delay, callDelay_up hplan hb hup, State.returnToCaller_idle hidle]
    rfl

/-! ## `SETDC`, `ROT`, `STOP` and `UPDSF` (R142, R149, R151, R152) -/

theorem exec_setdc (pct : Byte) (s : State) : exec (.setdc pct) s = .next (s.enterSetdc pct) := rfl

theorem exec_rot (s : State) : exec .rot s = execRot s := rfl

theorem State.enterSetdc_valid {pct : Byte} (h : validPercent pct) (s : State) :
    s.enterSetdc pct = s.push (.setdc pct .test) := if_pos h

theorem State.enterSetdc_invalid {pct : Byte} (h : ¬ validPercent pct) (s : State) :
    s.enterSetdc pct = s.returnToCaller .rangeExceeded := if_neg h

/-- Settles O18. -/
theorem setdcEntersLoop : Obligations.SetdcEntersLoop := by
  intro s pct
  refine ⟨fun hin => ?_, fun hout hidle => ?_⟩
  · rw [exec_setdc, State.enterSetdc_valid hin]
    rfl
  · have hinvalid : ¬ validPercent pct := Nat.not_le.2 hout
    rw [exec_setdc, State.enterSetdc_invalid hinvalid, State.returnToCaller_idle hidle]
    rfl

/-- The state in which `ROT` has toggled the right motor and entered its loop. -/
def State.startRotation (s : State) : State :=
  ((s.toggleDir .right).push .rotfin).push (.setdc Config.rotationDutyCycle .test)

theorem execRot_flagAt {s : State} {b : Byte} (hb : s.flagAt s.mref b) :
    execRot s = if b ≠ 0#8 then .next (s.complete .aborted) else .next s.startRotation := by
  rw [execRot, withFlag_flagAt hb, State.enterSetdc_valid (by decide)]
  rfl

/-- What `ROT` can answer. -/
theorem execRot_cases {s t : State} (h : execRot s = .next t) :
    (s.mref = 0#2 ∧ t = { s with fault := 1#8 })
      ∨ (∃ b, s.flagAt s.mref b ∧ b ≠ 0#8 ∧ t = s.complete .aborted)
      ∨ (s.flagAt s.mref 0#8 ∧ t = s.startRotation) := by
  rcases withFlag_cases s.mref s _ with ⟨hnull, e⟩ | ⟨_, e⟩ | ⟨b, hb, _⟩
  · rw [execRot, e] at h
    cases h
    exact .inl ⟨hnull, rfl⟩
  · rw [execRot, e] at h
    cases h
  · rw [execRot_flagAt hb] at h
    split at h
    next hup => cases h; exact .inr (.inl ⟨b, hb, hup, rfl⟩)
    next hdown => cases h; exact .inr (.inr ⟨not_not.1 hdown ▸ hb, rfl⟩)

/-- Settles O19: the flag read faults, refuses or starts the rotation. -/
theorem rotStartsRotation : Obligations.RotStartsRotation := by
  intro s
  refine ⟨fun hdown => ?_, fun b hb hup => ?_, fun hnull => ?_⟩
  · rw [exec_rot, execRot_flagAt hdown, if_neg (not_not.2 rfl)]
    rfl
  · rw [exec_rot, execRot_flagAt hb, if_pos hup]
    rfl
  · rw [exec_rot, execRot, withFlag_null hnull]

theorem exec_stop (s : State) :
    exec .stop s = .next { s with
      pinOut := s.pinOut &&& 0b011011#6
      mstop := 0#1
      result := 0#8
      evt := s.evt ++ [.pinWrite s.pinDir (s.pinOut &&& 0b011011#6), .result 0#8] } := by
  change Host.Outcome.next
    ({ s.writePinOut (s.pinOut &&& ~~~pwmMask) with mstop := 0#1 }.complete .ok)
    = _
  rw [not_pwmMask, State.writePinOut_eq, State.complete_ok_eq]
  simp

/-- Settles O14: a second `STOP` masks what the first has masked. -/
theorem stopLowersPwmPins : Obligations.StopLowersPwmPins := by
  intro s
  refine ⟨exec_stop s, fun t ht => ?_⟩
  rw [exec_stop] at ht
  cases ht
  rw [exec_stop]
  simp [BitVec.and_assoc]

/-- Settles O15. -/
theorem updsfSetsStopFlag : Obligations.UpdsfSetsStopFlag := fun _ => rfl

/-! ## What each command can do -/

theorem execCfgnm_cases {sel : Byte} {ref : FlagRef} {s t : State}
    (h : execCfgnm sel ref s = .next t) :
    t = s.complete .invalidArgument
      ∨ (validSelector sel ∧ legalRef ref ∧ t = (s.configure sel ref).complete .ok) := by
  unfold execCfgnm at h
  split at h
  next => cases h; exact .inl rfl
  next hvalid =>
    cases h
    obtain ⟨hsel, href⟩ := not_or.1 hvalid
    exact .inr ⟨not_not.1 hsel, not_not.1 href, rfl⟩

theorem execSetcb_cases {val : Byte} {s t : State} (h : execSetcb val s = .next t) :
    t = { s with cb := val }.complete .ok ∨ t = s.complete .invalidArgument := by
  unfold execSetcb at h
  split at h
  next => cases h; exact .inl rfl
  next => cases h; exact .inr rfl

theorem execMinit_cases {ref : FlagRef} {s t : State} (h : execMinit ref s = .next t) :
    t = s.complete .invalidArgument
      ∨ (legalRef ref ∧ t = { { s with pinDir := 0b111111#6 }.writePinOut
          ((s.pinOut &&& pwmMask) ||| fwdPattern) with mref := ref, cb := 1#8 }.complete .ok) := by
  unfold execMinit at h
  split at h
  next => cases h; exact .inl rfl
  next hlegal => cases h; exact .inr ⟨not_not.1 hlegal, rfl⟩

/-- What `DELAY` can answer. -/
theorem execDelay_cases {ms : Millis} {s t : State} (h : execDelay ms s = .next t) :
    (plan s.params.tickNs ms.toNat = none ∧ t = s.returnToCaller .rangeExceeded)
      ∨ ∃ p, plan s.params.tickNs ms.toNat = some p
        ∧ ((s.tref = 0#2 ∧ t = { s with fault := 1#8 })
          ∨ (∃ b, s.flagAt s.tref b ∧ b ≠ 0#8 ∧ t = s.returnToCaller .aborted)
          ∨ (s.flagAt s.tref 0#8 ∧ t = s.startDelay p)) :=
  callDelay_cases ms.toNat s s t rfl h

/-- Settles O20, command by command. -/
theorem commandsWriteOnlyTheirRegisters : Obligations.CommandsWriteOnlyTheirRegisters := by
  intro i s t h
  cases i with
  | cfgnm sel ref =>
    rcases execCfgnm_cases h with rfl | ⟨_, _, rfl⟩
    · simp
    · simp
  | delay ms =>
    rcases execDelay_cases h with ⟨_, rfl⟩ | ⟨p, _, ⟨_, rfl⟩ | ⟨_, _, _, rfl⟩ | ⟨_, rfl⟩⟩
    · simp
    · simp
    · simp
    · simp
  | setcb val =>
    rcases execSetcb_cases h with rfl | rfl
    · simp
    · simp
  | minit ref =>
    rcases execMinit_cases h with rfl | ⟨_, rfl⟩
    · simp
    · simp
  | chdir side => cases h; simp
  | setdc val =>
    cases h
    rcases s.enterSetdc_cases val with ⟨_, e⟩ | ⟨_, e⟩
    · simp [e]
    · simp [e]
  | rot =>
    rcases execRot_cases h with ⟨_, rfl⟩ | ⟨_, _, _, rfl⟩ | ⟨_, rfl⟩
    · simp
    · simp
    · simp [State.startRotation]
  | stop => cases h; simp
  | updsf => cases h; simp

end Sys2Proof.Machine

/-! The command port and the schedule (spec/30_encoding.md R80, R86, spec/10_state.md R41):
accepted, reserved and lost words, moves that are not enabled, and reset. -/

namespace Sys2Proof.Machine

/-! ## Presenting a word (R80) -/

theorem step_of_nextMove {s : State} {m : Move} (h : nextMove s = some m) :
    step s = takeMove m s.startStep := by
  rw [step, h]

theorem presentWord_accepted {s : State} {w : CmdWord} {ws : List CmdWord}
    (hcmds : s.cmds = w :: ws)
    (hacc : s.acceptEnabled) : presentWord s = accept w { s with cmds := ws } := by
  simp only [presentWord, hcmds]
  exact if_pos hacc

theorem presentWord_lost {s : State} {w : CmdWord} {ws : List CmdWord} (hcmds : s.cmds = w :: ws)
    (hacc : ¬ s.acceptEnabled) : presentWord s = .next { s with cmds := ws } := by
  simp only [presentWord, hcmds]
  exact if_neg hacc

theorem accept_of_decode_ok {w : CmdWord} {i : Instr} (h : decode w = .ok i) (s : State) :
    accept w s = exec i (s.emit (.issue w)) := by
  simp only [accept, h]

theorem accept_of_decode_error {w : CmdWord} {r : Reserved} (h : decode w = .error r) (s : State) :
    accept w s = .next ((s.emit (.issue w)).complete .invalidArgument) := by
  simp only [accept, h]

/-- Any one of the three conditions of R220 keeps `Accept` from being enabled. -/
theorem not_acceptEnabled_iff (s : State) :
    ¬ s.acceptEnabled ↔ s.seq ≠ [] ∨ s.fault ≠ 0#8 ∨ s.ovfPend ≠ 0#1 := by
  rw [State.acceptEnabled]
  tauto

/-- Settles O5. -/
theorem stepRunsAcceptedCommand : Obligations.StepRunsAcceptedCommand := by
  intro s w ws i hseq hfault hpend hmove hcmds hdec
  rw [step_of_nextMove hmove]
  change presentWord s.startStep = _
  rw [presentWord_accepted (s := s.startStep) hcmds ⟨hseq, hfault, hpend⟩, accept_of_decode_ok hdec]
  rfl

/-- Settles O6: placing the word puts it where O5 runs it. -/
theorem stepRunsPlacedCommand : Obligations.StepRunsPlacedCommand := by
  intro s w i hseq hfault hpend hdec
  have hword : tableWord 40 w = BitVec.ofNat 40 w := by
    apply BitVec.eq_of_toNat_eq
    simp [tableWord]
  have hdec' : decode (tableWord 40 w) = .ok i := by
    unfold decodeTableWord at hdec
    split at hdec
    next h => cases hdec; exact h
    next => cases hdec
  rw [stepRunsAcceptedCommand (s.withFetchWord 40 w) (tableWord 40 w) s.cmds i hseq hfault hpend rfl
    rfl hdec', hword]
  rfl

/-- Settles O7: a reserved word is completed where a command would be run. -/
theorem reservedWordCompletes : Obligations.ReservedWordCompletes := by
  refine ⟨fun s w ws r hseq hfault hpend hmove hcmds hdec => ?_, fun w hop => ?_⟩
  · rw [step_of_nextMove hmove]
    change presentWord s.startStep = _
    rw [presentWord_accepted (s := s.startStep) hcmds ⟨hseq, hfault, hpend⟩,
      accept_of_decode_error hdec]
    simp [State.complete, State.emit, State.startStep, ResultCode.value]
  · exact (reservedWordsAreExactly w).2 (hop.imp_right .inl)

/-- Settles O8. -/
theorem wordWhileBusyIsLost : Obligations.WordWhileBusyIsLost := by
  intro s w ws hbusy hmove hcmds
  rw [step_of_nextMove hmove]
  exact presentWord_lost (s := s.startStep) hcmds ((not_acceptEnabled_iff s).2 hbusy)

/-- Settles O9: in a state that meets the invariant an empty stack has no interrupt pending. -/
theorem acceptsExactlyWhenNotBusy : Obligations.AcceptsExactlyWhenNotBusy := by
  intro s hinv
  simp only [State.busy, decide_eq_false_iff_not, not_or, not_not]
  refine ⟨fun ⟨hseq, hfault, _⟩ => ⟨hseq, hfault⟩, fun ⟨hseq, hfault⟩ => ⟨hseq, hfault, ?_⟩⟩
  exact hinv.pendQuiet (by rw [hseq]; rfl)

/-! ## Moves that are not enabled (R15, R41) -/

/-- Settles O40. -/
theorem anyMoveCanComeNext : Obligations.AnyMoveCanComeNext := fun _ _ _ => rfl

/-- Settles O41: the tick and the interrupt by O26 and O27, the sequencer and the port by their
conditions. -/
theorem disabledMovesDoNothing : Obligations.DisabledMovesDoNothing := by
  intro s
  refine ⟨fun hdisabled => ?_, (tickCountsAndFlagsOverflow s).2, (isrServesOverflow s).1,
    fun hbusy => ?_⟩
  · refine takeMove_seqStep_of_disabled fun ⟨hseq, hfault, hpend, hready⟩ => ?_
    rcases hdisabled with h | h | h | ⟨cnt, rest, htop, htov⟩
    · exact hseq h
    · exact h hfault
    · exact h hpend
    · rw [htop, pollReady, decide_eq_true_eq, tovOf_eq_one_iff, htov] at hready
      cases hready
  · change presentWord s = _
    cases hcmds : s.cmds with
    | nil => simp only [presentWord, hcmds]; rw [List.tail_nil, ← hcmds]
    | cons w ws => exact presentWord_lost hcmds ((not_acceptEnabled_iff s).2 hbusy)

/-! ## The flag space and reset -/

theorem flagRead_named {ref : FlagRef} {m : Memory} {b : Byte} (h : ref ≠ 0#2)
    (hread : m.read (ref.toNat - 1) = some b) : flagRead ref m = .value b := by
  simp only [flagRead, h, if_false, hread]

/-- Settles O29. -/
theorem flagSpaceHasTwoCells : Obligations.FlagSpaceHasTwoCells := by
  intro m
  have h0 : m.read 0 = some (m.lookup 0) := Memory.read_of_lt (by decide)
  have h1 : m.read 1 = some (m.lookup 1) := Memory.read_of_lt (by decide)
  exact ⟨rfl, ⟨_, h0, flagRead_named (by decide) h0⟩, ⟨_, h1, flagRead_named (by decide) h1⟩,
    fun k hk => if_neg (Nat.not_lt.2 hk)⟩

/-- Settles O31. -/
theorem resetState : Obligations.ResetState := ⟨rfl, rfl, rfl⟩

end Sys2Proof.Machine

/-! What a step can be (spec/10_state.md R41, spec/42_motor_control.md R160): one case per move and
its condition, one case per transition of the sequencer, and what follows for every step. -/

namespace Sys2Proof.Machine

/-! ## The sequencer (R113, R144 to R150) -/

/-- The two phases that call a delay: the phase, the phase stored under the delay, and its length in
PWM ticks (R145, R147, R148). -/
inductive CallsDelay (pct : Byte) : Phase → Phase → Nat → Prop where
  | on : CallsDelay pct .on .low (onTicks pct)
  | off : CallsDelay pct .off .test (offTicks pct)

/-- The frames whose step reads a flag, and so can raise the fault. -/
def Frame.readsFlag : Frame → Prop
  | .dpoll _ => True
  | .setdc _ ph => ph ≠ .low
  | .rotfin => False

theorem seqStep_callsDelay {s : State} {pct : Byte} {ph back : Phase} {n : Nat} {rest : List Frame}
    (hcalls : CallsDelay pct ph back n) (hseq : s.seq = .setdc pct ph :: rest) :
    seqStep s = callDelay (n * s.params.pwmTickMs) s { s with seq := .setdc pct back :: rest } := by
  cases hcalls with
  | on => simp only [seqStep, hseq]; rfl
  | off => simp only [seqStep, hseq]; rfl

theorem seqStep_rotfin {s : State} {rest : List Frame} (hseq : s.seq = .rotfin :: rest) :
    seqStep s = .next ((s.toggleDir .right).ret .ok) := by
  simp only [seqStep, hseq, rotFin]

/-- Settles O23: the answers of R112 with the waiting frame as caller. -/
theorem loopDelaysCallTheTimer : Obligations.LoopDelaysCallTheTimer := by
  intro s pct rest ph back m hseq hfault hpend hpct hphase
  obtain ⟨n, hcalls, rfl⟩ : ∃ n, CallsDelay pct ph back n ∧ m = n * s.params.pwmTickMs := by
    rcases hphase with ⟨rfl, rfl, rfl⟩ | ⟨rfl, rfl, rfl⟩
    · exact ⟨_, .on, rfl⟩
    · exact ⟨_, .off, rfl⟩
  rw [takeMove_seqStep_setdc hseq hfault hpend, seqStep_callsDelay hcalls hseq]
  refine ⟨fun p hplan hdown => ?_, fun p b hplan hb hup => ?_, fun hplan => ?_,
    fun p hplan hnull => ?_⟩
  · exact (callDelay_down (s := { s with seq := .setdc pct back :: rest }) hplan hdown).trans
      (congrArg _ (State.startDelay_eq _ p))
  · exact callDelay_up (s := { s with seq := .setdc pct back :: rest }) hplan hb hup
  · exact callDelay_outOfRange (s := { s with seq := .setdc pct back :: rest }) hplan s
  · exact callDelay_null (s := { s with seq := .setdc pct back :: rest }) hplan hnull s

/-- Settles O25. -/
theorem rotateEndTogglesBack : Obligations.RotateEndTogglesBack := by
  intro s hseq hfault hpend
  have hen : s.seqEnabled := ⟨by simp [hseq], hfault, hpend, by simp [hseq, pollReady]⟩
  have hseq' : (s.toggleDir .right).seq = [.rotfin] := hseq
  rw [takeMove_seqStep_of_enabled hen, seqStep_rotfin hseq, State.ret_last hseq',
    State.toggleDir, State.writePinOut_eq, State.complete_ok_eq]
  simp [enMask]

/-- The transitions of the sequencer (R160), each with its condition and the state it leaves. -/
inductive Sequenced (s : State) : State → Prop where
  | faults {f : Frame} {rest : List Frame} (hseq : s.seq = f :: rest) (hreads : f.readsFlag) :
      Sequenced s { s with fault := 1#8 }
  | counts {cnt : Count} {rest : List Frame} (hseq : s.seq = .dpoll cnt :: rest)
      (hdown : s.flagAt s.tref 0#8) (hlt : cnt + 1#16 < s.ovfNeeded) :
      Sequenced s { s.clearTov with seq := .dpoll (cnt + 1#16) :: rest }
  | delayEnds {cnt : Count} {rest : List Frame} {b : Byte} (hseq : s.seq = .dpoll cnt :: rest)
      (hb : s.flagAt s.tref b) (hdone : s.ovfNeeded ≤ cnt + 1#16 ∨ b ≠ 0#8) :
      Sequenced s (s.clearTov.stopTimer.ret .ok)
  | drives {pct : Byte} {rest : List Frame} (hseq : s.seq = .setdc pct .test :: rest)
      (hdown : s.flagAt s.mref 0#8) (hrun : s.mstop = 0#1) :
      Sequenced s { s.writePinOut (s.pinOut ||| pwmMask) with seq := .setdc pct .on :: rest }
  | loopEnds {pct : Byte} {rest : List Frame} {b : Byte} (hseq : s.seq = .setdc pct .test :: rest)
      (hb : s.flagAt s.mref b) (hstop : s.mstop ≠ 0#1 ∨ b ≠ 0#8) :
      Sequenced s ({ s with mstop := 0#1 }.ret .ok)
  | delayStarts {pct : Byte} {ph back : Phase} {n : Nat} {rest : List Frame} {p : Plan}
      (hseq : s.seq = .setdc pct ph :: rest) (hcalls : CallsDelay pct ph back n)
      (hplan : plan s.params.tickNs (n * s.params.pwmTickMs) = some p)
      (hdown : s.flagAt s.tref 0#8) :
      Sequenced s ({ s with seq := .setdc pct back :: rest }.startDelay p)
  | delayRefused {pct : Byte} {ph back : Phase} {n : Nat} {rest : List Frame}
      (hseq : s.seq = .setdc pct ph :: rest) (hcalls : CallsDelay pct ph back n)
      (hrefused : s.delayRefused (n * s.params.pwmTickMs)) :
      Sequenced s { s with seq := .setdc pct back :: rest }
  | lowers {pct : Byte} {rest : List Frame} (hseq : s.seq = .setdc pct .low :: rest) :
      Sequenced s { s.writePinOut (s.pinOut &&& ~~~pwmMask) with seq := .setdc pct .off :: rest }
  | rotateEnds {rest : List Frame} (hseq : s.seq = .rotfin :: rest) :
      Sequenced s ((s.toggleDir .right).ret .ok)

theorem sequenced_of_callsDelay {s t : State} {pct : Byte} {ph back : Phase} {n : Nat}
    {rest : List Frame} (hcalls : CallsDelay pct ph back n) (hseq : s.seq = .setdc pct ph :: rest)
    (h : seqStep s = .next t) : Sequenced s t := by
  rw [seqStep_callsDelay hcalls hseq] at h
  rcases callDelay_cases (n * s.params.pwmTickMs)
    s { s with seq := .setdc pct back :: rest } t rfl h
    with ⟨hplan, rfl⟩ | ⟨p, hplan, ⟨_, rfl⟩ | ⟨b, hb, hup, rfl⟩ | ⟨hdown, rfl⟩⟩
  · rw [State.returnToCaller_busy rfl]
    exact .delayRefused hseq hcalls (.inl hplan)
  · exact .faults hseq (by cases hcalls <;> exact Phase.noConfusion)
  · rw [State.returnToCaller_busy rfl]
    exact .delayRefused hseq hcalls (.inr ⟨b, hb, hup⟩)
  · exact .delayStarts hseq hcalls hplan hdown

/-- A step of the sequencer on a stack that is not empty is one of its transitions. -/
theorem sequenced_of_seqStep {s t : State} (hne : s.seq ≠ []) (h : seqStep s = .next t) :
    Sequenced s t := by
  obtain ⟨f, rest, hseq⟩ := List.exists_cons_of_ne_nil hne
  cases f with
  | dpoll cnt =>
    rw [seqStep_dpoll hseq] at h
    rcases pollStep_cases h with ⟨_, rfl⟩ | ⟨b, hb, hdone, rfl⟩ | ⟨hdown, hlt, rfl⟩
    · exact .faults hseq trivial
    · rw [setTov_zero]
      exact .delayEnds hseq hb hdone
    · rw [setTov_zero]
      exact .counts hseq hdown hlt
  | setdc pct ph =>
    cases ph with
    | test =>
      rw [seqStep_setdcTest hseq] at h
      rcases setdcTest_cases h with ⟨_, rfl⟩ | ⟨hdown, hrun, rfl⟩ | ⟨b, hb, hstop, rfl⟩
      · exact .faults hseq Phase.noConfusion
      · exact .drives hseq hdown hrun
      · exact .loopEnds hseq hb hstop
    | on => exact sequenced_of_callsDelay .on hseq h
    | low =>
      rw [seqStep_setdcLow hseq, setdcLow] at h
      cases h
      exact .lowers hseq
    | off => exact sequenced_of_callsDelay .off hseq h
  | rotfin =>
    rw [seqStep_rotfin hseq] at h
    cases h
    exact .rotateEnds hseq

/-! ## A step (R41) -/

/-- The state in which a command is run: its word taken from the port and logged. -/
abbrev State.issued (s : State) (w : CmdWord) (ws : List CmdWord) : State :=
  { s with cmds := ws }.emit (.issue w)

/-- What a step can be: the moves with their conditions, a word that is lost, and waiting. -/
inductive Stepped (s : State) : State → Prop where
  | waits (hseq : nextMove s = some .seqStep → ¬ s.seqEnabled)
      (hport : nextMove s = some .present → s.cmds = []) : Stepped s s.startStep
  | loses {w : CmdWord} {ws : List CmdWord} (hmove : nextMove s = some .present)
      (hcmds : s.cmds = w :: ws) (hbusy : ¬ s.acceptEnabled) :
      Stepped s { s.startStep with cmds := ws }
  | reserved {w : CmdWord} {ws : List CmdWord} {r : Reserved} (hmove : nextMove s = some .present)
      (hcmds : s.cmds = w :: ws) (hacc : s.acceptEnabled) (hdec : decode w = .error r) :
      Stepped s ((s.startStep.issued w ws).complete .invalidArgument)
  | runs {w : CmdWord} {ws : List CmdWord} {i : Instr} {t : State}
      (hmove : nextMove s = some .present) (hcmds : s.cmds = w :: ws) (hacc : s.acceptEnabled)
      (hdec : decode w = .ok i) (hexec : exec i (s.startStep.issued w ws) = .next t) : Stepped s t
  | sequences {t : State} (hmove : nextMove s = some .seqStep) (hen : s.seqEnabled)
      (hstep : Sequenced s.startStep t) : Stepped s t
  | counts (hmove : nextMove s = some .tick) (hen : s.tickEnabled) : Stepped s (tick s.startStep)
  | serves {t : State} (hmove : nextMove s = some .isr) (hen : s.isrEnabled)
      (hisr : isr s.startStep = .next t) : Stepped s t
  | envWrites {k : Fin 2} {v : BitVec 1} (hmove : nextMove s = some (.envWrite k v)) :
      Stepped s (s.startStep.envWrite k v)
  | resets (hmove : nextMove s = some .reset) : Stepped s s.startStep.assertReset

theorem stepped_of_present {s t : State} (hmove : nextMove s = some .present)
    (h : presentWord s.startStep = .next t) : Stepped s t := by
  have hnotSeq : nextMove s = some .seqStep → ¬ s.seqEnabled := by
    simp [hmove]
  rcases presentWord_cases s.startStep with
    ⟨hcmds, e⟩ | ⟨w, ws, hcmds, ⟨hacc, e⟩ | ⟨hacc, ⟨r, hdec⟩, e⟩
    | ⟨hacc, i, hdec, e⟩⟩
  · rw [e] at h; cases h
    exact .waits hnotSeq fun _ => hcmds
  · rw [e] at h; cases h
    exact .loses hmove hcmds hacc
  · rw [e] at h; cases h
    exact .reserved hmove hcmds hacc hdec
  · rw [e] at h
    exact .runs hmove hcmds hacc hdec h

/-- Every step that answers a next state is one of these. -/
theorem stepped_of_step {s t : State} (h : step s = .next t) : Stepped s t := by
  rcases step_cases s with ⟨m, hmove, e⟩ | ⟨hmove, e⟩
  case inr =>
    rw [e] at h; cases h
    exact .waits (by simp [hmove]) (by simp [hmove])
  case inl =>
    rw [e] at h
    cases m with
    | present => exact stepped_of_present hmove h
    | seqStep =>
      by_cases hen : s.seqEnabled
      · rw [takeMove_seqStep_of_enabled (s := s.startStep) hen] at h
        exact .sequences hmove hen (sequenced_of_seqStep hen.1 h)
      · rw [takeMove_seqStep_of_disabled (s := s.startStep) hen] at h
        cases h
        exact .waits (fun _ => hen) (by simp [hmove])
    | tick =>
      by_cases hen : s.tickEnabled
      · rw [takeMove_tick_of_enabled (s := s.startStep) hen] at h
        cases h
        exact .counts hmove hen
      · rw [takeMove_tick_of_disabled (s := s.startStep) hen] at h
        cases h
        exact .waits (by simp [hmove]) (by simp [hmove])
    | isr =>
      by_cases hen : s.isrEnabled
      · rw [takeMove_isr_of_enabled (s := s.startStep) hen] at h
        exact .serves hmove hen h
      · rw [takeMove_isr_of_disabled (s := s.startStep) hen] at h
        cases h
        exact .waits (by simp [hmove]) (by simp [hmove])
    | envWrite k v => cases h; exact .envWrites hmove
    | reset => cases h; exact .resets hmove

end Sys2Proof.Machine

/-! What every step keeps and who writes what (spec/10_state.md R20 to R41, spec/60_exceptions.md
R182, R187): the halt after a fault, the pending interrupt, the log, and the writers of each
register. -/

namespace Sys2Proof.Machine

/-! ## The block's own part of the state -/

/-- While the block can neither accept, nor step its sequencer, nor count, only the interrupt and
reset change its own part. -/
theorem Stepped.blockPart_eq {s t : State} (h : Stepped s t) (hacc : ¬ s.acceptEnabled)
    (hseq : ¬ s.seqEnabled) (htick : ¬ s.tickEnabled)
    (hisr : nextMove s = some .isr → ¬ s.isrEnabled)
    (hreset : nextMove s ≠ some .reset) :
    t.blockPart = s.blockPart ∧ t.agenda = s.agenda.tail := by
  cases h with
  | waits | loses | envWrites => exact ⟨rfl, rfl⟩
  | reserved _ _ hen | runs _ _ hen => exact absurd hen hacc
  | sequences _ hen => exact absurd hen hseq
  | counts _ hen => exact absurd hen htick
  | serves hmove hen => exact absurd hen (hisr hmove)
  | resets hmove => exact absurd hmove hreset

/-- A recorded fault disables every move of the block (R182). -/
theorem Stepped.blockPart_of_halted {s t : State} (h : Stepped s t) (hhalted : s.halted)
    (hreset : nextMove s ≠ some .reset) : t.blockPart = s.blockPart :=
  (h.blockPart_eq (fun hen => hhalted hen.2.1) (fun hen => hhalted hen.2.1)
    (fun hen => hhalted hen.2.1) (fun _ hen => hhalted hen.2) hreset).1

/-- Settles O43. -/
theorem faultHaltsTheBlock : Obligations.FaultHaltsTheBlock := by
  intro s t hhalted hstep
  exact ⟨decide_eq_true (.inr hhalted), (stepped_of_step hstep).blockPart_of_halted hhalted⟩

/-- Settles O30: the fault is a field of the block's own part. -/
theorem resetRestoresBlock : Obligations.ResetRestoresBlock := by
  refine ⟨fun s => rfl, fun s t hhalted hstep hreset => ?_⟩
  have hpart := (stepped_of_step hstep).blockPart_of_halted hhalted hreset
  change t.blockPart.fault = s.blockPart.fault
  rw [hpart]

/-- Settles O42: an interrupt pending disables all but its service, which the eager schedule puts
first. -/
theorem pendingInterruptPreempts : Obligations.PendingInterruptPreempts := by
  intro s t hpend hfault hstep
  have hbusy : s.ovfPend ≠ 0#1 := by rw [hpend]; decide
  refine ⟨fun hisr hreset => ?_, fun hagenda => ?_⟩
  · exact ((stepped_of_step hstep).blockPart_eq (fun hen => hbusy hen.2.2)
      (fun hen => hbusy hen.2.2.1) (fun hen => hbusy hen.2.2) (fun hmove => absurd hmove hisr)
      hreset).1
  · simp [nextMove, hagenda, eagerMove, State.isrEnabled, hpend, hfault]

/-! ## The log (R37) -/

theorem State.returnToCaller_evt_prefix (s : State) (c : ResultCode) :
    s.evt <+: (s.returnToCaller c).evt := by
  rcases s.returnToCaller_cases c with ⟨_, e⟩ | ⟨_, e⟩
  · simp [e]
  · simp [e]

theorem State.ret_evt_prefix (s : State) (c : ResultCode) : s.evt <+: (s.ret c).evt :=
  State.returnToCaller_evt_prefix { s with seq := s.seq.tail } c

theorem exec_evt_prefix {i : Instr} {s t : State} (h : exec i s = .next t) : s.evt <+: t.evt := by
  cases i with
  | cfgnm sel ref =>
    rcases execCfgnm_cases h with rfl | ⟨_, _, rfl⟩
    · simp
    · simp
  | delay ms =>
    rcases execDelay_cases h with ⟨_, rfl⟩ | ⟨p, _, ⟨_, rfl⟩ | ⟨_, _, _, rfl⟩ | ⟨_, rfl⟩⟩
    · exact s.returnToCaller_evt_prefix _
    · exact List.prefix_rfl
    · exact s.returnToCaller_evt_prefix _
    · simp
  | setcb val =>
    rcases execSetcb_cases h with rfl | rfl
    · simp
    · simp
  | minit ref =>
    rcases execMinit_cases h with rfl | ⟨_, rfl⟩
    · simp
    · simp
  | chdir side => cases h; simp
  | setdc val =>
    cases h
    rcases s.enterSetdc_cases val with ⟨_, e⟩ | ⟨_, e⟩
    · simp [e]
    · rw [e]
      exact s.returnToCaller_evt_prefix _
  | rot =>
    rcases execRot_cases h with ⟨_, rfl⟩ | ⟨_, _, _, rfl⟩ | ⟨_, rfl⟩
    · exact List.prefix_rfl
    · simp
    · simp [State.startRotation]
  | stop => cases h; simp
  | updsf => cases h; simp

theorem Sequenced.evt_prefix {s t : State} (h : Sequenced s t) : s.evt <+: t.evt := by
  cases h with
  | faults | delayRefused => exact List.prefix_rfl
  | counts | drives | delayStarts | lowers => simp [State.clearTov]
  | delayEnds =>
    exact .trans (by simp [State.clearTov]) (s.clearTov.stopTimer.ret_evt_prefix _)
  | loopEnds => exact State.ret_evt_prefix { s with mstop := 0#1 } _
  | rotateEnds => exact .trans (by simp) ((s.toggleDir .right).ret_evt_prefix _)

theorem invokeCallback_evt_prefix (s : State) : s.evt <+: (invokeCallback s).evt := by
  rcases invokeCallback_cases s with ⟨_, e⟩ | ⟨_, e⟩ | ⟨_, _, e⟩
  · rw [e]
  · simp [e]
  · simp [e]

theorem isr_evt_prefix {s t : State} (h : isr s = .next t) : s.evt <+: t.evt := by
  rcases isr_cases h with ⟨_, rfl⟩ | ⟨_, _, _, rfl⟩ | ⟨_, _, rfl⟩
  · exact List.prefix_rfl
  · exact .trans (by simp) (invokeCallback_evt_prefix _)
  · simp

/-- Settles O45: every move but reset appends to the log. -/
theorem logIsAppendOnly : Obligations.LogIsAppendOnly := by
  intro s t hstep hreset
  suffices hprefix : s.evt <+: t.evt by
    obtain ⟨es, hes⟩ := hprefix
    exact ⟨es, hes.symm⟩
  cases stepped_of_step hstep with
  | waits | loses | envWrites => exact List.prefix_rfl
  | reserved => simp
  | runs _ _ _ _ hexec => exact .trans (by simp) (exec_evt_prefix hexec)
  | sequences _ _ hseq => exact hseq.evt_prefix
  | counts => simp
  | serves _ _ hisr => exact isr_evt_prefix (s := s.startStep) hisr
  | resets hmove => exact absurd hmove hreset

/-! ## The writers of each register -/

/-- No step of the sequencer writes the other registers, the flag cells or the inputs. -/
theorem Sequenced.frame {s t : State} (h : Sequenced s t) :
    t.tIen = s.tIen ∧ t.ovfPend = s.ovfPend ∧ t.isrCnt = s.isrCnt ∧ t.tref = s.tref
      ∧ t.mref = s.mref
      ∧ t.cb = s.cb ∧ t.pinDir = s.pinDir ∧ t.cbOut = s.cbOut ∧ t.mem = s.mem
      ∧ t.params = s.params := by
  cases h with
  | delayEnds | loopEnds | rotateEnds => simp [State.clearTov]
  | _ => exact ⟨rfl, rfl, rfl, rfl, rfl, rfl, rfl, rfl, rfl, rfl⟩

theorem Frame.readsFlag_cases {f : Frame} (h : f.readsFlag) :
    (∃ c, f = .dpoll c) ∨ ∃ pct, f = .setdc pct .test ∨ f = .setdc pct .on
      ∨ f = .setdc pct .off := by
  cases f with
  | dpoll c => exact .inl ⟨c, rfl⟩
  | setdc pct ph =>
    refine .inr ⟨pct, ?_⟩
    cases ph with
    | test => exact .inl rfl
    | on => exact .inr (.inl rfl)
    | low => exact absurd rfl h
    | off => exact .inr (.inr rfl)
  | rotfin => exact h.elim

/-- `RESULT` is written where `ret` empties the stack, and nowhere else. -/
theorem State.tail_of_ret_result {s : State} {c : ResultCode} (h : (s.ret c).result ≠ s.result) :
    s.seq.tail = [] := by
  rcases s.ret_cases c with ⟨htail, _⟩ | ⟨_, e⟩
  · exact htail
  · rw [e] at h
    exact absurd rfl h

/-- Which frame's step writes which of the registers that the sequencer writes. -/
theorem Sequenced.writers {s t : State} (h : Sequenced s t) :
    (t.tCtrl ≠ s.tCtrl → (∃ c, s.seq.head? = some (.dpoll c))
        ∨ ∃ pct, s.seq.head? = some (.setdc pct .on) ∨ s.seq.head? = some (.setdc pct .off))
    ∧ (t.tCnt ≠ s.tCnt ∨ t.ovfNeeded ≠ s.ovfNeeded →
        ∃ pct, s.seq.head? = some (.setdc pct .on) ∨ s.seq.head? = some (.setdc pct .off))
    ∧ (t.tFlg ≠ s.tFlg → ∃ c, s.seq.head? = some (.dpoll c))
    ∧ (t.mstop ≠ s.mstop → ∃ pct, s.seq.head? = some (.setdc pct .test))
    ∧ (t.result ≠ s.result → t.seq = [])
    ∧ (t.fault ≠ s.fault → (∃ c, s.seq.head? = some (.dpoll c))
        ∨ ∃ pct, s.seq.head? = some (.setdc pct .test) ∨ s.seq.head? = some (.setdc pct .on)
          ∨ s.seq.head? = some (.setdc pct .off))
    ∧ (t.pinOut ≠ s.pinOut →
        (∃ pct, s.seq.head? = some (.setdc pct .test) ∨ s.seq.head? = some (.setdc pct .low))
        ∨ s.seq.head? = some .rotfin) := by
  cases h with
  | faults hseq hreads =>
    have htop := Frame.readsFlag_cases hreads
    simpa [hseq] using fun _ => htop
  | counts hseq => simp [hseq, State.clearTov]
  | @delayEnds _ _ _ hseq =>
    have hret := State.tail_of_ret_result (s := s.clearTov.stopTimer) (c := .ok)
    simpa [hseq, State.clearTov] using hret
  | drives hseq => simp [hseq]
  | loopEnds hseq =>
    have hret := State.tail_of_ret_result (s := { s with mstop := 0#1 }) (c := .ok)
    simpa [hseq] using hret
  | delayStarts hseq hcalls => cases hcalls with | on | off => simp [hseq]
  | delayRefused => simp
  | lowers hseq => simp [hseq]
  | rotateEnds hseq =>
    have hret := State.tail_of_ret_result (s := s.toggleDir .right) (c := .ok)
    simpa [hseq] using hret

/-- No interrupt service writes the other registers, the stack, the flag cells or the inputs. -/
theorem isr_frame {s t : State} (h : isr s = .next t) :
    t.tCnt = s.tCnt ∧ t.tIen = s.tIen ∧ t.tFlg = s.tFlg ∧ t.ovfNeeded = s.ovfNeeded
      ∧ t.tref = s.tref ∧ t.mref = s.mref ∧ t.cb = s.cb ∧ t.result = s.result
      ∧ t.pinDir = s.pinDir ∧ t.pinOut = s.pinOut ∧ t.seq = s.seq ∧ t.mem = s.mem
      ∧ t.params = s.params := by
  rcases isr_cases h with ⟨_, rfl⟩ | ⟨_, _, _, rfl⟩ | ⟨_, _, rfl⟩
  · simp
  · simp
  · simp

/-- The subscriber decides what its invocation writes to `MSTOP` and `CB_OUT`. -/
theorem invokeCallback_writers (s : State) :
    ((invokeCallback s).mstop ≠ s.mstop → s.cb = 1#8)
    ∧ ((invokeCallback s).cbOut ≠ s.cbOut →
      (invokeCallback s).cbOut = some s.cb ∧ 1#8 < s.cb) := by
  rcases invokeCallback_cases s with ⟨_, e⟩ | ⟨hcb, e⟩ | ⟨h0, h1, e⟩
  · simp [e]
  · simp [e, hcb]
  · have hexternal : 1#8 < s.cb := by bv_omega
    simp [e, hexternal]

theorem isr_writers {s t : State} (h : isr s = .next t) :
    (t.mstop ≠ s.mstop → s.cb = 1#8)
    ∧ (t.cbOut ≠ s.cbOut → t.cbOut = some s.cb ∧ 1#8 < s.cb) := by
  rcases isr_cases h with ⟨_, rfl⟩ | ⟨_, _, _, rfl⟩ | ⟨_, _, rfl⟩
  · simp
  · exact invokeCallback_writers _
  · simp

theorem exec_mem {i : Instr} {s t : State} (h : exec i s = .next t) : t.mem = s.mem := by
  cases i with
  | cfgnm sel ref =>
    rcases execCfgnm_cases h with rfl | ⟨_, _, rfl⟩
    · rfl
    · rfl
  | delay ms =>
    rcases execDelay_cases h with ⟨_, rfl⟩ | ⟨p, _, ⟨_, rfl⟩ | ⟨_, _, _, rfl⟩ | ⟨_, rfl⟩⟩
    · exact s.returnToCaller_mem _
    · rfl
    · exact s.returnToCaller_mem _
    · rfl
  | setcb val =>
    rcases execSetcb_cases h with rfl | rfl
    · rfl
    · rfl
  | minit ref =>
    rcases execMinit_cases h with rfl | ⟨_, rfl⟩
    · rfl
    · rfl
  | chdir side => cases h; rfl
  | setdc val =>
    cases h
    rcases s.enterSetdc_cases val with ⟨_, e⟩ | ⟨_, e⟩
    · simp [e]
    · simp [e]
  | rot =>
    rcases execRot_cases h with ⟨_, rfl⟩ | ⟨_, _, _, rfl⟩ | ⟨_, rfl⟩
    · rfl
    · rfl
    · rfl
  | stop => cases h; rfl
  | updsf => cases h; rfl

/-- Which command writes which register: the frame of O20 read the other way. -/
theorem exec_writers {i : Instr} {s t : State} (h : exec i s = .next t) :
    (t.tCtrl ≠ s.tCtrl → (∃ sel ref, .cfgnm sel ref = i) ∨ ∃ ms, .delay ms = i)
    ∧ (t.tCnt ≠ s.tCnt ∨ t.ovfNeeded ≠ s.ovfNeeded → ∃ ms, .delay ms = i)
    ∧ (t.tIen ≠ s.tIen ∨ t.tref ≠ s.tref → ∃ sel ref, .cfgnm sel ref = i)
    ∧ (t.mref ≠ s.mref ∨ t.pinDir ≠ s.pinDir → ∃ ref, .minit ref = i)
    ∧ (t.cb ≠ s.cb → (∃ val, .setcb val = i) ∨ ∃ ref, .minit ref = i)
    ∧ (t.mstop ≠ s.mstop → .stop = i ∨ .updsf = i)
    ∧ (t.fault ≠ s.fault → (∃ ms, .delay ms = i) ∨ .rot = i)
    ∧ (t.pinOut ≠ s.pinOut → (∃ ref, .minit ref = i) ∨ (∃ d, .chdir d = i) ∨ .rot = i ∨ .stop = i)
    ∧ (t.seq ≠ s.seq → blockingCommand i) := by
  obtain ⟨-, -, -, -, -, -, -, -, hcfgnm, hminit, hcb, hmstop, hctrl, hdelay, hpin, hseq, hfault⟩ :=
    commandsWriteOnlyTheirRegisters i s t h
  refine ⟨fun hne => ?_, fun hne => ?_, fun hne => ?_, fun hne => ?_, fun hne => ?_, fun hne => ?_,
    fun hne => ?_, fun hne => ?_, fun hne => ?_⟩ <;> by_contra! hno
  · exact hne (hctrl (fun sel ref e => hno.1 sel ref e.symm) fun ms e => hno.2 ms e.symm)
  · exact hne.elim (· (hdelay fun ms e => hno ms e.symm).1) (· (hdelay fun ms e => hno ms e.symm).2)
  · exact hne.elim (· (hcfgnm fun sel ref e => hno sel ref e.symm).1)
      (· (hcfgnm fun sel ref e => hno sel ref e.symm).2)
  · exact hne.elim (· (hminit fun ref e => hno ref e.symm).1)
      (· (hminit fun ref e => hno ref e.symm).2)
  · exact hne (hcb (fun ref e => hno.2 ref e.symm) fun val e => hno.1 val e.symm)
  · exact hne (hmstop hno.1.symm hno.2.symm)
  · exact hne (hfault (fun ms e => hno.1 ms e.symm) hno.2.symm)
  · obtain ⟨hnoMinit, hnoChdir, hnoRot, hnoStop⟩ := hno
    exact hne (hpin (fun ref e => hnoMinit ref e.symm) (fun d e => hnoChdir d e.symm) hnoRot.symm
      hnoStop.symm)
  · obtain ⟨hnoDelay, hnoSetdc, hnoRot⟩ := hno
    exact hne (hseq hnoDelay hnoSetdc hnoRot)

/-- A presented word is one command. -/
theorem presents_iff {s : State} {w : CmdWord} {ws : List CmdWord} {i : Instr}
    (hmove : nextMove s = some .present) (hcmds : s.cmds = w :: ws) (hdec : decode w = .ok i)
    (j : Instr) : s.presents j ↔ j = i := by
  simp [State.presents, hmove, hcmds, hdec, eq_comm]

/-- Settles O44, move by move; the clauses in the order of the statement: the parameters, the
memory, `T_CTRL`, `T_CNT`, `T_IEN`, `T_FLG`, `OVF_PEND`, `OVF_NEEDED`, `ISR_CNT`, `TREF`, `MREF`,
`CB`, `MSTOP`, `RESULT`, `FAULT`, `PIN_DIR`, `PIN_OUT`, `SEQ`, the log, the pulse. -/
theorem registersHaveTheirWriters : Obligations.RegistersHaveTheirWriters := by
  intro s t hstep hreset
  cases stepped_of_step hstep with
  | waits | loses =>
    exact ⟨rfl, absurd rfl, absurd rfl, absurd rfl, absurd rfl, absurd rfl, absurd rfl, absurd rfl,
      absurd rfl, absurd rfl, absurd rfl, absurd rfl, absurd rfl, absurd rfl, absurd rfl,
      absurd rfl, absurd rfl, absurd rfl, absurd rfl, absurd rfl⟩
  | reserved hmove =>
    exact ⟨rfl, absurd rfl, absurd rfl, absurd rfl, absurd rfl, absurd rfl, absurd rfl, absurd rfl,
      absurd rfl, absurd rfl, absurd rfl, absurd rfl, absurd rfl, fun _ => .inl hmove, absurd rfl,
      absurd rfl, absurd rfl, absurd rfl, fun _ => .inl hmove, absurd rfl⟩
  | @runs w ws i _ hmove hcmds hacc hdec hexec =>
    obtain ⟨-, hflg, hpend, hisr, hcbOut, hparams, -⟩ := commandsWriteOnlyTheirRegisters i _ t hexec
    obtain ⟨hctrl, hdelay, hcfgnm, hminit, hcb, hmstop, hfault, hpin, hseq⟩ := exec_writers hexec
    have hmem := exec_mem hexec
    dsimp only [State.issued, State.emit, State.startStep] at *
    simp only [presents_iff hmove hcmds hdec]
    exact ⟨hparams, absurd hmem, fun h => .inr (.inr (.inr (hctrl h))),
      fun h => .inr (.inr (hdelay (.inl h))), fun h => hcfgnm (.inl h), absurd hflg, absurd hpend,
      fun h => .inr (hdelay (.inr h)), absurd hisr, fun h => hcfgnm (.inr h),
      fun h => hminit (.inl h), hcb, fun h => .inr (.inr (hmstop h)), fun _ => .inl hmove,
      fun h => .inr (.inr (.inr (hfault h))), fun h => hminit (.inr h),
      fun h => .inr (.inr (hpin h)), fun h => .inr ⟨i, rfl, hseq h⟩, fun _ => .inl hmove,
      absurd hcbOut⟩
  | sequences hmove hen hseq =>
    obtain ⟨hien, hpend, hisr, htref, hmref, hcb, hdir, hcbOut, hmem, hparams⟩ := hseq.frame
    obtain ⟨hctrl, hcnt, hflg, hmstop, hresult, hfault, hpin⟩ := hseq.writers
    simp only [State.sequences, hmove, true_and]
    exact ⟨hparams, absurd hmem, fun h => .inr ((hctrl h).imp_right .inl),
      fun h => .inr (.inl (hcnt (.inl h))), absurd hien, fun h => .inr (hflg h), absurd hpend,
      fun h => .inl (hcnt (.inr h)), absurd hisr, absurd htref, absurd hmref, absurd hcb,
      fun h => .inr (.inl (hmstop h)), fun h => .inr (hresult h),
      fun h => .inr ((hfault h).imp_right .inl), absurd hdir, fun h => (hpin h).imp_right .inl,
      fun _ => .inl trivial, fun _ => .inr (.inl trivial), absurd hcbOut⟩
  | counts hmove =>
    exact ⟨tick_params _, absurd (tick_mem _), absurd (tick_tCtrl _), fun _ => .inl hmove,
      absurd (tick_tIen _), fun _ => .inl hmove, fun _ => .inl hmove, absurd (tick_ovfNeeded _),
      absurd (tick_isrCnt _), absurd (tick_tref _), absurd (tick_mref _), absurd (tick_cb _),
      absurd (tick_mstop _), absurd (tick_result _), absurd (tick_fault _), absurd (tick_pinDir _),
      absurd (tick_pinOut _), absurd (tick_seq _), absurd (tick_evt _), absurd (tick_cbOut _)⟩
  | serves hmove _ hisr =>
    obtain ⟨hcnt, hien, hflg, hneeded, htref, hmref, hcb, hresult, hdir, hout, hseq, hmem,
      hparams⟩ :=
      isr_frame hisr
    obtain ⟨hmstop, hcbOut⟩ := isr_writers hisr
    exact ⟨hparams, absurd hmem, fun _ => .inl hmove, absurd hcnt, absurd hien, absurd hflg,
      fun _ => .inr hmove, absurd hneeded, fun _ => hmove, absurd htref, absurd hmref, absurd hcb,
      fun h => .inl ⟨hmove, hmstop h⟩, absurd hresult, fun _ => .inl hmove, absurd hdir,
      absurd hout, absurd hseq, fun _ => .inr (.inr hmove), fun h => ⟨hmove, hcbOut h⟩⟩
  | envWrites hmove =>
    exact ⟨rfl, fun _ => ⟨_, _, hmove⟩, absurd rfl, absurd rfl, absurd rfl, absurd rfl, absurd rfl,
      absurd rfl, absurd rfl, absurd rfl, absurd rfl, absurd rfl, absurd rfl, absurd rfl,
      absurd rfl, absurd rfl, absurd rfl, absurd rfl, absurd rfl, absurd rfl⟩
  | resets hmove => exact absurd hmove hreset

end Sys2Proof.Machine

/-! The invariant (spec/10_state.md R35, spec/70_reset_and_hazards.md R222): each operation and each
move keeps it, and in it every move answers a next state. -/

namespace Sys2Proof.Machine

/-! ## The legal stacks (10_state R35) -/

theorem legalBelowLoop_cases {pct : Byte} {rest : List Frame} (h : legalBelowLoop pct rest) :
    (rest = [] ∧ validPercent pct) ∨ (rest = [.rotfin] ∧ pct = Config.rotationDutyCycle) := by
  match rest, h with
  | [], h => exact .inl ⟨rfl, h⟩
  | .rotfin :: _, ⟨hpct, hrest⟩ => exact .inr ⟨by rw [hrest], hpct⟩

/-- Under a waiting delay lies nothing, or a loop in the phase after the delay. -/
theorem legalStack_dpoll_iff (cnt : Count) (rest : List Frame) :
    legalStack (.dpoll cnt :: rest) ↔ rest = []
      ∨ ∃ pct ph below, rest = .setdc pct ph :: below ∧ ph.waiting ∧ legalBelowLoop pct below := by
  match rest with
  | [] => simp [legalStack]
  | .setdc pct ph :: below => simp [legalStack]
  | .rotfin :: _ => simp [legalStack]
  | .dpoll _ :: _ => simp [legalStack]

/-- The count of a waiting delay does not matter to the pins. -/
theorem pwmPhase_dpoll (c d : Count) (rest : List Frame) :
    pwmPhase (.dpoll c :: rest) = pwmPhase (.dpoll d :: rest) := by
  match rest with
  | [] | .rotfin :: _ | .dpoll _ :: _ => rfl
  | .setdc _ .test :: _ | .setdc _ .on :: _ | .setdc _ .low :: _ | .setdc _ .off :: _ => rfl

theorem legalStack_rotfin_iff (rest : List Frame) :
    legalStack (.rotfin :: rest) ↔ rest = [] := Iff.rfl

theorem legalStack_length {fs : List Frame} (h : legalStack fs) : fs.length ≤ 3 := by
  have hbelow : ∀ {pct rest}, legalBelowLoop pct rest → rest.length ≤ 1 := fun hb => by
    rcases legalBelowLoop_cases hb with ⟨rfl, _⟩ | ⟨rfl, _⟩ <;> decide
  match fs, h with
  | [], _ => decide
  | .rotfin :: rest, h => rw [(legalStack_rotfin_iff rest).1 h]; decide
  | .setdc _ _ :: rest, h => exact Nat.succ_le_succ ((hbelow h).trans (by decide))
  | .dpoll cnt :: rest, h =>
    rcases (legalStack_dpoll_iff cnt rest).1 h with rfl | ⟨pct, ph, below, rfl, _, hb⟩
    · exact Nat.le_of_ble_eq_true rfl
    · exact Nat.succ_le_succ (Nat.succ_le_succ (hbelow hb))

/-! ## Register values of the invariant -/

theorem setCs_zero_of_ctrl {v : Byte} (h : v = 0x00#8 ∨ v = 0x05#8) : setCs v 0#3 = 0x00#8 := by
  rcases h with rfl | rfl <;> rfl

theorem clearTov_of_flg {v : Byte} (h : v = 0x00#8 ∨ v = 0x01#8) : v &&& 0xFE#8 = 0x00#8 := by
  rcases h with rfl | rfl <;> rfl

theorem setTov_of_flg {v : Byte} (h : v = 0x00#8 ∨ v = 0x01#8) : setTov v 1#1 = 0x01#8 := by
  rcases h with rfl | rfl <;> rfl

theorem setMode_zero_of_ctrl {v : Byte} (h : v = 0x00#8 ∨ v = 0x05#8) : setMode v 0#1 = v := by
  rcases h with rfl | rfl <;> rfl

theorem setToie_of_ien {v : Byte} (h : v = 0x00#8 ∨ v = 0x01#8) (b : BitVec 1) :
    setToie v b = 0x00#8 ∨ setToie v b = 0x01#8 := by
  rcases h with rfl | rfl <;> revert b <;> decide

/-- The enable pins and the PWM pins are different pins (10_state R34). -/
theorem xor_enMask_and_pwmMask (v : Pins) (d : MotorSide) :
    (v ^^^ enMask d) &&& pwmMask = v &&& pwmMask := by
  cases d <;> revert v <;> decide

theorem forward_and_pwmMask (v : Pins) :
    ((v &&& pwmMask) ||| fwdPattern) &&& pwmMask = v &&& pwmMask := by
  revert v; decide

theorem or_pwmMask_and_pwmMask (v : Pins) : (v ||| pwmMask) &&& pwmMask = pwmMask := by
  revert v; decide

theorem and_not_pwmMask_and_pwmMask (v : Pins) : (v &&& ~~~pwmMask) &&& pwmMask = 0#6 := by
  revert v; decide

theorem not_timerRunning_of_zero {s : State} (h : s.tCtrl = 0x00#8) : ¬ s.timerRunning := by
  rw [State.timerRunning, h]; decide

/-! ## The shared operations -/

theorem Inv.startStep {s : State} (h : Inv s) : Inv s.startStep := { h with }

theorem Inv.emit {s : State} (h : Inv s) (e : Event) : Inv (s.emit e) := { h with }

theorem Inv.issued {s : State} (h : Inv s) (w : CmdWord) (ws : List CmdWord) :
    Inv (s.issued w ws) := { h with }

theorem Inv.raiseFault {s : State} (h : Inv s) : Inv { s with fault := 1#8 } :=
  { h with faultCode := .inr rfl }

theorem Inv.complete {s : State} (h : Inv s) {c : ResultCode} (hc : c.value ≤ 3#8) :
    Inv (s.complete c) := { h with resultCode := hc }

theorem Inv.returnToCaller {s : State} (h : Inv s) {c : ResultCode} (hc : c.value ≤ 3#8) :
    Inv (s.returnToCaller c) := by
  rcases s.returnToCaller_cases c with ⟨_, e⟩ | ⟨_, e⟩
  · rw [e]; exact h.complete hc
  · rw [e]; exact h

/-- Returning from a frame keeps the invariant if removing the frame does. -/
theorem Inv.ret {s : State} (h : Inv { s with seq := s.seq.tail }) : Inv (s.ret .ok) :=
  h.returnToCaller (by decide)

theorem Inv.envWrite {s : State} (h : Inv s) (k : Fin 2) (v : BitVec 1) : Inv (s.envWrite k v) :=
  { h with
    memWf := Memory.write_wf k.isLt h.memWf
    memBinary := Memory.write_binary (levelByte_binary v) h.memBinary }

/-- The start of a delay, on the empty stack or over a loop that has passed its flag read. -/
theorem Inv.startDelay {s : State} (h : Inv s) {m : Nat} {p : Plan}
    (hplan : plan s.params.tickNs m = some p) (htref : s.tref ≠ 0#2)
    (hstack : legalStack (.dpoll 0#16 :: s.seq)) (hmref : s.seq ≠ [] → s.mref ≠ 0#2) :
    Inv (s.startDelay p) := by
  obtain ⟨hneeded, hmax, _⟩ := planBounds _ _ _ h.tick hplan
  have hpwm : pwmPhase (.dpoll 0#16 :: s.seq) = pwmPhase s.seq := by
    rcases (legalStack_dpoll_iff _ _).1 hstack with
      e | ⟨pct, ph, below, e, rfl | rfl, _⟩ <;> rw [e] <;> rfl
  have hctrl : setCs 0x00#8 Config.delayPrescalerCode = 0x05#8 := rfl
  exact { h with
    ctrl := .inr hctrl
    stack := hstack
    running := fun _ => rfl
    tovQuiet := fun hno => by cases hno
    pendQuiet := fun hno => by cases hno
    trefSet := fun _ => htref
    mrefSet := fun hread => hmref (of_decide_eq_true hread)
    pollBelow := fun cnt hcnt => by
      cases hcnt
      change 0#16 < BitVec.ofNat 16 p.needed
      bv_omega
    pwm := by
      change s.pinOut &&& pwmMask = if pwmPhase (.dpoll 0#16 :: s.seq) then pwmMask else 0#6
      rw [hpwm]
      exact h.pwm
    rotateClear := fun e => by cases e }

theorem Inv.stopTimer {s : State} (h : Inv s) : Inv s.stopTimer :=
  have hzero : s.stopTimer.tCtrl = 0x00#8 := setCs_zero_of_ctrl h.ctrl
  { h with
    ctrl := .inl hzero
    running := fun hrun => absurd hrun (not_timerRunning_of_zero hzero) }

theorem Inv.invokeCallback {s : State} (h : Inv s) (hnotFin : s.seq ≠ [.rotfin]) :
    Inv (invokeCallback s) := by
  rcases invokeCallback_cases s with ⟨_, e⟩ | ⟨_, e⟩ | ⟨_, _, e⟩
  · rw [e]; exact h
  · rw [e]; exact { h with rotateClear := fun hfin => absurd hfin hnotFin }
  · rw [e]; exact { h with }

/-! ## States without a waiting delay -/

/-- The part of the invariant that speaks neither of the stack nor of the pins. -/
structure RegInv (s : State) : Prop where
  memWf : s.mem.wf = true
  memBinary : s.mem.binary = true
  ctrl : s.tCtrl = 0x00#8 ∨ s.tCtrl = 0x05#8
  ien : s.tIen = 0x00#8 ∨ s.tIen = 0x01#8
  flg : s.tFlg = 0x00#8 ∨ s.tFlg = 0x01#8
  trefLegal : legalRef s.tref
  mrefLegal : legalRef s.mref
  resultCode : s.result ≤ 3#8
  faultCode : s.fault = 0#8 ∨ s.fault = 1#8
  isrBelow : s.isrCnt < 65535#16
  tick : s.params.legal

theorem Inv.regs {s : State} (h : Inv s) : RegInv s := { h with }

/-- The timer stopped, no overflow flagged and no interrupt pending. -/
def State.quiet (s : State) : Prop := ¬ s.timerRunning ∧ s.tFlg = 0x00#8 ∧ s.ovfPend = 0#1

theorem Inv.quiet {s : State} (h : Inv s) (hnot : polling s.seq = false) : s.quiet :=
  ⟨fun hrun => absurd ((h.running hrun).symm.trans hnot) (by decide), h.tovQuiet hnot,
    h.pendQuiet hnot⟩

/-- The invariant of a state in which no delay waits. -/
theorem inv_of_quiet {s : State} (hregs : RegInv s) (hstack : legalStack s.seq)
    (hnot : polling s.seq = false) (hquiet : s.quiet)
    (hmref : motorFlagRead s.seq = true → s.mref ≠ 0#2)
    (hpwm : s.pinOut &&& pwmMask = if pwmPhase s.seq then pwmMask else 0#6)
    (hclear : s.seq = [.rotfin] → s.mstop = 0#1) : Inv s :=
  { hregs with
    stack := hstack
    running := fun hrun => absurd hrun hquiet.1
    tovQuiet := fun _ => hquiet.2.1
    pendQuiet := fun _ => hquiet.2.2
    trefSet := fun hpoll => absurd (hpoll.symm.trans hnot) (by decide)
    mrefSet := hmref
    pollBelow := fun cnt hcnt => by
      have hpoll : polling s.seq = true := by
        unfold pollCount at hcnt
        split at hcnt
        next e => rw [e]; rfl
        next => cases hcnt
      exact absurd (hpoll.symm.trans hnot) (by decide)
    pwm := hpwm
    rotateClear := hclear }

/-! ## The moves -/

theorem Inv.count {s : State} (h : Inv s) (hen : s.tickEnabled) : Inv (Machine.tick s) := by
  have hpoll : polling s.seq = true := h.running hen.1
  rcases tick_cases s with ⟨_, e⟩ | ⟨_, _, e⟩ | ⟨_, _, e⟩
  · rw [e]; exact { h with }
  · rw [e]
    exact { h with
      flg := .inr (setTov_of_flg h.flg)
      tovQuiet := fun hno => absurd (hpoll.symm.trans hno) (by decide)
      pendQuiet := fun hno => absurd (hpoll.symm.trans hno) (by decide) }
  · rw [e]
    exact { h with
      flg := .inr (setTov_of_flg h.flg)
      tovQuiet := fun hno => absurd (hpoll.symm.trans hno) (by decide) }

theorem Inv.serve {s t : State} (h : Inv s) (hen : s.isrEnabled) (hisr : isr s = .next t) :
    Inv t := by
  have hpoll : polling s.seq = true := by
    by_contra hno
    have hzero := h.pendQuiet (Bool.eq_false_iff.2 hno)
    rw [hen.1] at hzero
    exact absurd hzero (by decide)
  have hbusy {P : Prop} (hno : polling s.seq = false) : P :=
    absurd (hpoll.symm.trans hno) (by decide)
  have hnotFin : s.seq ≠ [.rotfin] := fun e => hbusy (by rw [e]; rfl)
  rcases isr_cases hisr with ⟨_, rfl⟩ | ⟨_, _, _, rfl⟩ | ⟨_, hlt, rfl⟩
  · exact h.raiseFault
  · refine Inv.invokeCallback (Inv.stopTimer ?_) hnotFin
    exact { h with
      pendQuiet := fun hno => hbusy hno
      isrBelow := show 0#16 < 65535#16 by decide }
  · exact { h with
      pendQuiet := fun hno => hbusy hno
      isrBelow := show s.isrCnt + 1#16 < 65535#16 by bv_omega }

theorem Inv.configure {s : State} (h : Inv s) (hidle : s.seq = []) (sel : Byte) {ref : FlagRef}
    (href : legalRef ref) : Inv (s.configure sel ref) := by
  have hctrl : (s.configure sel ref).tCtrl = s.tCtrl := setMode_zero_of_ctrl h.ctrl
  exact { h with
    ctrl := by rw [hctrl]; exact h.ctrl
    ien := setToie_of_ien h.ien _
    trefLegal := href
    running := fun hrun => h.running (by rwa [State.timerRunning, hctrl] at hrun)
    trefSet := fun hpoll => by
      rw [State.configure_seq, hidle] at hpoll
      cases hpoll }

/-- A command accepted on the empty stack. -/
theorem Inv.exec {i : Instr} {s t : State} (h : Inv s) (hidle : s.seq = [])
    (hexec : exec i s = .next t) : Inv t := by
  have hquiet : s.quiet := h.quiet (by rw [hidle]; rfl)
  have hpins : s.pinOut &&& pwmMask = 0#6 := by simpa [hidle, pwmPhase] using h.pwm
  have hok : ResultCode.value .ok ≤ 3#8 := by decide
  cases i with
  | cfgnm sel ref =>
    rcases execCfgnm_cases hexec with rfl | ⟨_, href, rfl⟩
    · exact h.complete (by decide)
    · exact (h.configure hidle sel href).complete hok
  | delay ms =>
    rcases execDelay_cases hexec with
      ⟨_, rfl⟩ | ⟨p, hplan, ⟨_, rfl⟩ | ⟨_, _, _, rfl⟩ | ⟨hdown, rfl⟩⟩
    · exact h.returnToCaller (by decide)
    · exact h.raiseFault
    · exact h.returnToCaller (by decide)
    · exact h.startDelay hplan hdown.1 (by rw [hidle]; trivial) (fun hne => absurd hidle hne)
  | setcb val =>
    rcases execSetcb_cases hexec with rfl | rfl
    · exact { h with resultCode := hok }
    · exact h.complete (by decide)
  | minit ref =>
    rcases execMinit_cases hexec with rfl | ⟨href, rfl⟩
    · exact h.complete (by decide)
    · exact { h with
        mrefLegal := href
        resultCode := hok
        mrefSet := fun hread => by
          change motorFlagRead s.seq = true at hread
          rw [hidle] at hread
          cases hread
        pwm := (forward_and_pwmMask s.pinOut).trans h.pwm }
  | chdir side =>
    cases hexec
    exact { h with
      resultCode := hok
      pwm := (xor_enMask_and_pwmMask s.pinOut side).trans h.pwm }
  | setdc val =>
    cases hexec
    rcases s.enterSetdc_cases val with ⟨hpct, e⟩ | ⟨_, e⟩
    · rw [e, State.push, hidle]
      exact inv_of_quiet { h.regs with } hpct rfl hquiet (fun hread => by cases hread) hpins
        (fun e => by cases e)
    · rw [e]
      exact h.returnToCaller (by decide)
  | rot =>
    rcases execRot_cases hexec with ⟨_, rfl⟩ | ⟨_, _, _, rfl⟩ | ⟨hdown, rfl⟩
    · exact h.raiseFault
    · exact h.complete (by decide)
    · rw [State.startRotation, State.push, State.push, State.toggleDir_seq, hidle]
      exact inv_of_quiet { h.regs with } ⟨rfl, rfl⟩ rfl hquiet (fun _ => hdown.1)
        ((xor_enMask_and_pwmMask s.pinOut .right).trans hpins) (fun e => by cases e)
  | stop =>
    cases hexec
    exact { h with
      resultCode := hok
      pwm := by
        rw [State.complete_seq, State.writePinOut_seq, hidle]
        exact and_not_pwmMask_and_pwmMask s.pinOut
      rotateClear := fun _ => rfl }
  | updsf =>
    cases hexec
    exact { h with
      resultCode := hok
      rotateClear := fun e => by cases hidle.symm.trans e }

/-! ## The sequencer -/

/-- The stack under a delay that returns: nothing, or a loop in the phase after the delay, whose
pins are as they were under the delay. -/
theorem Inv.delayReturns {s : State} {cnt : Count} {rest : List Frame} (h : Inv s)
    (hseq : s.seq = .dpoll cnt :: rest) (hpend : s.ovfPend = 0#1) :
    Inv { s.clearTov.stopTimer with seq := rest } := by
  have hstack := h.stack
  have hpwm := h.pwm
  have hmref := h.mrefSet
  have hctrl : setCs s.tCtrl 0#3 = 0x00#8 := setCs_zero_of_ctrl h.ctrl
  have hflg : s.tFlg &&& 0xFE#8 = 0x00#8 := clearTov_of_flg h.flg
  rw [hseq] at hstack hpwm hmref
  have hregs : RegInv { s.clearTov.stopTimer with seq := rest } :=
    { h.regs with ctrl := .inl hctrl, flg := .inl hflg }
  have hquiet : State.quiet { s.clearTov.stopTimer with seq := rest } :=
    ⟨not_timerRunning_of_zero hctrl, hflg, hpend⟩
  rcases (legalStack_dpoll_iff cnt rest).1 hstack with rfl | ⟨pct, ph, below, rfl, hph, hbelow⟩
  · exact inv_of_quiet hregs trivial rfl hquiet (fun hread => by cases hread) hpwm
      (fun e => by cases e)
  · refine inv_of_quiet hregs hbelow rfl hquiet (fun _ => hmref rfl) ?_ (fun e => by cases e)
    rcases hph with rfl | rfl
    · exact hpwm
    · exact hpwm

/-- The loop at its next phase, as it waits under the delay that it calls. -/
theorem Inv.nextPhase {s : State} {pct : Byte} {ph back : Phase} {n : Nat} {rest : List Frame}
    (h : Inv s) (hseq : s.seq = .setdc pct ph :: rest) (hcalls : CallsDelay pct ph back n) :
    Inv { s with seq := .setdc pct back :: rest } ∧ back.waiting ∧ s.mref ≠ 0#2 := by
  have hstack := h.stack
  have hpwm := h.pwm
  have hmref := h.mrefSet
  have hquiet : s.quiet := h.quiet (by rw [hseq]; rfl)
  rw [hseq] at hstack hpwm hmref
  cases hcalls with
  | on =>
    have hset : s.mref ≠ 0#2 := hmref rfl
    exact ⟨inv_of_quiet { h.regs with } hstack rfl hquiet (fun _ => hset) hpwm
      (fun e => by cases e),
      .inl rfl, hset⟩
  | off =>
    have hset : s.mref ≠ 0#2 := hmref rfl
    exact ⟨inv_of_quiet { h.regs with } hstack rfl hquiet (fun _ => hset) hpwm
      (fun e => by cases e),
      .inr rfl, hset⟩

/-- Every transition of the sequencer keeps the invariant. -/
theorem Inv.sequenced {s t : State} (h : Inv s) (hpend : s.ovfPend = 0#1) (hs : Sequenced s t) :
    Inv t := by
  have hstack := h.stack
  have hpwm := h.pwm
  cases hs with
  | faults => exact h.raiseFault
  | @counts cnt rest hseq hdown hlt =>
    rw [hseq] at hstack hpwm
    exact { h with
      flg := .inl (clearTov_of_flg h.flg)
      stack := by
        rw [legalStack_dpoll_iff] at hstack ⊢
        exact hstack
      running := fun _ => rfl
      tovQuiet := fun hno => by cases hno
      pendQuiet := fun hno => by cases hno
      trefSet := fun _ => hdown.1
      mrefSet := fun hread => h.mrefSet (by rw [hseq]; exact hread)
      pollBelow := fun c hc => by cases hc; exact hlt
      pwm := (pwmPhase_dpoll cnt (cnt + 1#16) rest) ▸ hpwm
      rotateClear := fun e => by cases e }
  | @delayEnds cnt rest b hseq hb hdone =>
    refine Inv.ret ?_
    have htail : s.clearTov.stopTimer.seq.tail = rest := congrArg List.tail hseq
    rw [htail]
    exact h.delayReturns hseq hpend
  | @drives pct rest hseq hdown hrun =>
    have hquiet : s.quiet := h.quiet (by rw [hseq]; rfl)
    rw [hseq] at hstack
    exact inv_of_quiet { h.regs with } hstack rfl hquiet (fun _ => hdown.1)
      (or_pwmMask_and_pwmMask s.pinOut) (fun e => by cases e)
  | @loopEnds pct rest b hseq hb hstop =>
    refine Inv.ret ?_
    have hquiet : s.quiet := h.quiet (by rw [hseq]; rfl)
    rw [hseq] at hstack hpwm ⊢
    rcases legalBelowLoop_cases hstack with ⟨rfl, _⟩ | ⟨rfl, _⟩
    · exact inv_of_quiet { h.regs with } trivial rfl hquiet (fun _ => hb.1) hpwm (fun _ => rfl)
    · exact inv_of_quiet { h.regs with } rfl rfl hquiet (fun _ => hb.1) hpwm (fun _ => rfl)
  | @delayStarts pct ph back n rest p hseq hcalls hplan hdown =>
    obtain ⟨hnext, hwaits, hmref⟩ := h.nextPhase hseq hcalls
    refine hnext.startDelay hplan hdown.1 ?_ (fun _ => hmref)
    exact (legalStack_dpoll_iff _ _).2 (.inr ⟨pct, back, rest, rfl, hwaits, hnext.stack⟩)
  | delayRefused hseq hcalls => exact (h.nextPhase hseq hcalls).1
  | @lowers pct rest hseq =>
    have hquiet : s.quiet := h.quiet (by rw [hseq]; rfl)
    have hset : s.mref ≠ 0#2 := h.mrefSet (by rw [hseq]; rfl)
    rw [hseq] at hstack
    exact inv_of_quiet { h.regs with } hstack rfl hquiet (fun _ => hset)
      (and_not_pwmMask_and_pwmMask s.pinOut) (fun e => by cases e)
  | @rotateEnds rest hseq =>
    refine Inv.ret ?_
    have hquiet : s.quiet := h.quiet (by rw [hseq]; rfl)
    rw [hseq, legalStack_rotfin_iff] at hstack
    subst hstack
    rw [hseq] at hpwm
    rw [State.toggleDir_seq, hseq]
    exact inv_of_quiet { h.regs with } trivial rfl hquiet (fun hread => by cases hread)
      ((xor_enMask_and_pwmMask s.pinOut .right).trans hpwm) (fun e => by cases e)

/-! ## Every step -/

/-- Settles O47. -/
theorem resetMeetsInvariant : Obligations.ResetMeetsInvariant := by
  intro m p ws ms hwf hbin htick
  exact {
    memWf := hwf
    memBinary := hbin
    ctrl := .inl rfl
    ien := .inl rfl
    flg := .inl rfl
    trefLegal := show (0#2 : FlagRef) ≠ 3#2 by decide
    mrefLegal := show (0#2 : FlagRef) ≠ 3#2 by decide
    resultCode := show 0#8 ≤ 3#8 by decide
    faultCode := .inl rfl
    stack := trivial
    running := fun hrun => absurd rfl hrun
    tovQuiet := fun _ => rfl
    pendQuiet := fun _ => rfl
    trefSet := fun hpoll => by cases hpoll
    mrefSet := fun hread => by cases hread
    pollBelow := fun _ hcnt => by cases hcnt
    isrBelow := show 0#16 < 65535#16 by decide
    pwm := show (0#6 : Pins) &&& pwmMask = 0#6 by decide
    rotateClear := fun e => by cases e
    tick := htick }

theorem Inv.stepped {s t : State} (h : Inv s) (hs : Stepped s t) : Inv t := by
  cases hs with
  | waits => exact h.startStep
  | loses => exact { h with }
  | reserved => exact (h.startStep.issued _ _).complete (by decide)
  | runs _ _ hacc _ hexec => exact (h.startStep.issued _ _).exec hacc.1 hexec
  | sequences _ hen hseq => exact h.startStep.sequenced hen.2.2.1 hseq
  | counts _ hen => exact h.startStep.count hen
  | serves _ hen hisr => exact h.startStep.serve hen hisr
  | envWrites => exact h.startStep.envWrite _ _
  | resets => exact resetMeetsInvariant _ _ _ _ h.memWf h.memBinary h.tick

/-- Settles O46: each of the things a step can be keeps the invariant. -/
theorem stepKeepsInvariant : Obligations.StepKeepsInvariant :=
  fun _ _ hinv hstep => hinv.stepped (stepped_of_step hstep)

/-! ## Progress -/

theorem withFlag_progress {ref : FlagRef} {s : State} {k : Byte → Answer} (hlegal : legalRef ref)
    (hk : ∀ b, ∃ t, k b = .next t) : ∃ t, withFlag ref s k = .next t := by
  rcases withFlag_cases ref s k with ⟨_, e⟩ | ⟨h3, _⟩ | ⟨b, _, e⟩
  · exact ⟨_, e⟩
  · exact absurd h3 hlegal
  · rw [e]; exact hk b

theorem ite_next_progress {c : Prop} [Decidable c] (t u : State) :
    ∃ v, (if c then (.next t : Answer) else .next u) = .next v := by
  split
  · exact ⟨_, rfl⟩
  · exact ⟨_, rfl⟩

theorem callDelay_progress {m : Nat} {found s : State} (hlegal : legalRef s.tref) :
    ∃ t, callDelay m found s = .next t := by
  cases hplan : plan s.params.tickNs m with
  | none => exact ⟨_, callDelay_outOfRange hplan found⟩
  | some p =>
    simp only [callDelay, hplan]
    exact withFlag_progress hlegal fun _ => ite_next_progress _ _

theorem Inv.exec_progress {s : State} (h : Inv s) (i : Instr) :
    ∃ t, Machine.exec i s = .next t := by
  cases i with
  | cfgnm sel ref => exact ite_next_progress _ _
  | delay ms => exact callDelay_progress h.trefLegal
  | setcb val => exact ite_next_progress _ _
  | minit ref => exact ite_next_progress _ _
  | chdir side => exact ⟨_, rfl⟩
  | setdc val => exact ⟨_, rfl⟩
  | rot => exact withFlag_progress h.mrefLegal fun _ => ite_next_progress _ _
  | stop => exact ⟨_, rfl⟩
  | updsf => exact ⟨_, rfl⟩

theorem Inv.seqStep_progress {s : State} (h : Inv s) : ∃ t, seqStep s = .next t := by
  match hseq : s.seq with
  | [] => exact ⟨s, by simp only [seqStep, hseq]⟩
  | .dpoll cnt :: rest =>
    rw [seqStep_dpoll hseq]
    exact withFlag_progress h.trefLegal fun _ => ite_next_progress _ _
  | .setdc pct .test :: rest =>
    rw [seqStep_setdcTest hseq]
    exact withFlag_progress h.mrefLegal fun _ => ite_next_progress _ _
  | .setdc pct .on :: rest =>
    rw [seqStep_callsDelay .on hseq]
    exact callDelay_progress h.trefLegal
  | .setdc pct .low :: rest => exact ⟨_, seqStep_setdcLow hseq⟩
  | .setdc pct .off :: rest =>
    rw [seqStep_callsDelay .off hseq]
    exact callDelay_progress h.trefLegal
  | .rotfin :: rest => exact ⟨_, seqStep_rotfin hseq⟩

theorem Inv.presentWord_progress {s : State} (h : Inv s) : ∃ t, presentWord s = .next t := by
  rcases presentWord_cases s with ⟨_, e⟩ | ⟨w, ws, _, ⟨_, e⟩ | ⟨_, _, e⟩ | ⟨_, i, _, e⟩⟩
  · exact ⟨_, e⟩
  · exact ⟨_, e⟩
  · exact ⟨_, e⟩
  · rw [e]; exact (h.issued w ws).exec_progress i

theorem Inv.takeMove_progress {s : State} (h : Inv s) (m : Move) : ∃ t, takeMove m s = .next t := by
  cases m with
  | present => exact h.presentWord_progress
  | seqStep =>
    by_cases hen : s.seqEnabled
    · rw [takeMove_seqStep_of_enabled hen]; exact h.seqStep_progress
    · exact ⟨_, takeMove_seqStep_of_disabled hen⟩
  | tick => exact ite_next_progress _ _
  | isr =>
    by_cases hen : s.isrEnabled
    · rw [takeMove_isr_of_enabled hen]
      exact withFlag_progress h.trefLegal fun _ => ite_next_progress _ _
    · exact ⟨_, takeMove_isr_of_disabled hen⟩
  | envWrite k v => exact ⟨_, rfl⟩
  | reset => exact ⟨_, rfl⟩

theorem Inv.step_progress {s : State} (h : Inv s) : ∃ t, step s = .next t := by
  rcases step_cases s with ⟨m, _, e⟩ | ⟨_, e⟩
  · rw [e]; exact h.startStep.takeMove_progress m
  · exact ⟨_, e⟩

/-- A run of one step more. -/
theorem run_succ {s t : State} (h : step s = .next t) (k : Nat) :
    Host.Core.run core (k + 1) s = Host.Core.run core k t := by
  have hcore : core.step s = .next t := h
  simp only [Host.Core.run, hcore]

/-- Settles O48, by induction on the number of steps. -/
theorem everyRunGoesOn : Obligations.EveryRunGoesOn := by
  intro k
  induction k with
  | zero => exact fun s hinv => ⟨s, rfl, hinv⟩
  | succ k ih =>
    intro s hinv
    obtain ⟨t, hstep⟩ := hinv.step_progress
    obtain ⟨u, hrun, hu⟩ := ih t (stepKeepsInvariant s t hinv hstep)
    exact ⟨u, (run_succ hstep k).trans hrun, hu⟩

end Sys2Proof.Machine

/-! Rules of the whole machine in the states of the invariant (spec/42_motor_control.md R153, R160,
spec/43_sudden_stop.md R173, R174): the stack after each move, and the state in which a command
ends. -/

namespace Sys2Proof.Machine

/-! ## The stack after an accepted command -/

/-- What a command leaves on the empty stack: nothing, with a fault or a refusal where it could have
pushed, or its frames, with the condition under which it pushes them. -/
theorem exec_seq_cases {i : Instr} {s t : State} (hidle : s.seq = []) (h : exec i s = .next t) :
    (t.seq = [] ∧ (blockingCommand i → t.fault = 1#8 ∨ t.result = 2#8 ∨ t.result = 3#8))
      ∨ (∃ ms, i = .delay ms ∧ s.delayPasses ms.toNat ∧ t.seq = [.dpoll 0#16])
      ∨ (∃ pct, i = .setdc pct ∧ pct ≤ 100#8 ∧ t.seq = [.setdc pct .test])
      ∨ (i = .rot ∧ s.flagAt s.mref 0#8 ∧ t.seq = [.setdc 50#8 .test, .rotfin]) := by
  obtain ⟨-, -, -, -, -, -, -, -, -, -, -, -, -, -, -, hframe, -⟩ :=
    commandsWriteOnlyTheirRegisters i s t h
  cases i with
  | delay ms =>
    rcases execDelay_cases h with ⟨_, rfl⟩ | ⟨p, hplan, ⟨_, rfl⟩ | ⟨_, _, _, rfl⟩ | ⟨hdown, rfl⟩⟩
    · rw [State.returnToCaller_idle hidle]
      exact .inl ⟨hidle, fun _ => .inr (.inl rfl)⟩
    · exact .inl ⟨hidle, fun _ => .inl rfl⟩
    · rw [State.returnToCaller_idle hidle]
      exact .inl ⟨hidle, fun _ => .inr (.inr rfl)⟩
    · exact .inr (.inl ⟨ms, rfl, ⟨⟨p, hplan⟩, hdown⟩, congrArg (List.cons _) hidle⟩)
  | setdc pct =>
    cases h
    rcases s.enterSetdc_cases pct with ⟨hpct, e⟩ | ⟨_, e⟩
    · rw [e]
      exact .inr (.inr (.inl ⟨pct, rfl, hpct, congrArg (List.cons _) hidle⟩))
    · rw [e, State.returnToCaller_idle hidle]
      exact .inl ⟨hidle, fun _ => .inr (.inl rfl)⟩
  | rot =>
    rcases execRot_cases h with ⟨_, rfl⟩ | ⟨_, _, _, rfl⟩ | ⟨hdown, rfl⟩
    · exact .inl ⟨hidle, fun _ => .inl rfl⟩
    · exact .inl ⟨hidle, fun _ => .inr (.inr rfl)⟩
    · exact .inr (.inr (.inr ⟨rfl, hdown, congrArg (_ :: _ :: ·) hidle⟩))
  | cfgnm | setcb | minit | chdir | stop | updsf =>
    have hseq : t.seq = s.seq := hframe (by simp) (by simp) (by simp)
    exact .inl ⟨hseq.trans hidle, fun hblocking => by simp [blockingCommand] at hblocking⟩

theorem motorState_of_idle {s : State} (h : s.seq = []) : s.motorState = .stopped := by
  simp [State.motorState, h, drivingPercent]

/-- Settles O50: the motor state is read off the stack that the command leaves. -/
theorem motorStateAtAccept : Obligations.MotorStateAtAccept := by
  intro i s t hidle h
  rcases exec_seq_cases hidle h with ⟨hseq, _⟩ | ⟨ms, rfl, _, hseq⟩ | ⟨pct, rfl, hpct, hseq⟩
    | ⟨rfl, hdown, hseq⟩
  case inl =>
    have hstopped := motorState_of_idle hseq
    refine ⟨fun pct e => ⟨fun hpct => ?_, fun _ => hstopped⟩,
      fun e => ⟨fun hdown => ?_, fun _ => hstopped⟩, fun _ _ => hstopped⟩
    · rw [e, (setdcEntersLoop s pct).1 hpct] at h
      cases h
      cases hseq
    · rw [e, (rotStartsRotation s).1 hdown] at h
      cases h
      cases hseq
  case inr.inl => simp [State.motorState, hseq, drivingPercent]
  case inr.inr.inl =>
    have hdriving : t.motorState = .driving pct := by simp [State.motorState, hseq, drivingPercent]
    refine ⟨fun q e => ?_, nofun, fun hno => absurd rfl (hno pct)⟩
    cases e
    exact ⟨fun _ => hdriving, fun hout => absurd hpct (Nat.not_le.2 hout)⟩
  case inr.inr.inr =>
    have hrotating : t.motorState = .rotating := by simp [State.motorState, hseq]
    exact ⟨nofun, fun _ => ⟨fun _ => hrotating, fun hno => absurd hdown hno⟩,
      fun _ hno => absurd rfl hno⟩

/-! ## The end of a command -/

/-- The frames leave the stack with `OK`. -/
theorem State.ret_result_of_last {s : State} {f : Frame} (h : s.seq = [f]) :
    (s.ret .ok).result = 0#8 ∧ (s.ret .ok).evt.getLast? = some (.result 0#8) := by
  rw [State.ret_last h]
  exact ⟨rfl, List.getLast?_concat⟩

/-- The transition that empties the stack completes the command with `OK`, and `MSTOP` is clear
unless the command was a delay. -/
theorem Sequenced.completes {s t : State} (h : Sequenced s t) (hinv : Inv s) (hempty : t.seq = []) :
    t.result = 0#8 ∧ t.evt.getLast? = some (.result 0#8)
      ∧ ((∀ c, s.seq ≠ [.dpoll c]) → t.mstop = 0#1) := by
  cases h with
  | faults hseq => cases hseq.symm.trans hempty
  | counts | drives | delayStarts | delayRefused | lowers => cases hempty
  | @delayEnds cnt rest _ hseq =>
    have hrest : rest = [] := by simpa [State.clearTov, hseq] using hempty
    subst hrest
    obtain ⟨hresult, hlast⟩ := State.ret_result_of_last (s := s.clearTov.stopTimer) hseq
    exact ⟨hresult, hlast, fun hno => absurd hseq (hno cnt)⟩
  | @loopEnds pct rest _ hseq =>
    have hrest : rest = [] := by simpa [hseq] using hempty
    subst hrest
    obtain ⟨hresult, hlast⟩ := State.ret_result_of_last (s := { s with mstop := 0#1 }) hseq
    exact ⟨hresult, hlast, fun _ => State.ret_mstop _ _⟩
  | @rotateEnds rest hseq =>
    have hrest : rest = [] := by simpa [hseq] using hempty
    subst hrest
    obtain ⟨hresult, hlast⟩ := State.ret_result_of_last (s := s.toggleDir .right) hseq
    exact ⟨hresult, hlast, fun _ => (State.ret_mstop _ _).trans (hinv.rotateClear hseq)⟩

/-- With the stack empty the invariant says the safe state (43_sudden_stop R173). -/
theorem Inv.safe_of_idle {s : State} (h : Inv s) (hidle : s.seq = []) : s.quiet ∧ s.safe := by
  have hquiet : s.quiet := h.quiet (by rw [hidle]; rfl)
  have hpwm := h.pwm
  rw [hidle] at hpwm
  exact ⟨hquiet, hquiet.1, hpwm⟩

/-- Only the sequencer and an accepted command change the stack. -/
theorem Stepped.seq_eq {s t : State} (h : Stepped s t) (hport : nextMove s ≠ some .present)
    (hseq : nextMove s ≠ some .seqStep) (hreset : nextMove s ≠ some .reset) : t.seq = s.seq := by
  cases h with
  | waits | loses | envWrites => rfl
  | reserved hmove | runs hmove => exact absurd hmove hport
  | sequences hmove => exact absurd hmove hseq
  | counts => exact tick_seq _
  | serves _ _ hisr =>
    obtain ⟨-, -, -, -, -, -, -, -, -, -, hkeeps, -⟩ := isr_frame hisr
    exact hkeeps
  | resets hmove => exact absurd hmove hreset

/-- Settles O51: the step is a transition of the sequencer, and the invariant does the rest. -/
theorem endedCommandLeavesSafeState : Obligations.EndedCommandLeavesSafeState := by
  intro s t hinv hstep hbusy hempty hreset
  obtain ⟨⟨hstopped, hflg, hpend⟩, -, hpwm⟩ :=
    (stepKeepsInvariant s t hinv hstep).safe_of_idle hempty
  suffices hdone : t.result = 0#8 ∧ t.evt.getLast? = some (.result 0#8)
      ∧ ((∀ c, s.seq ≠ [.dpoll c]) → t.mstop = 0#1) by
    obtain ⟨hresult, hlast, hmstop⟩ := hdone
    exact ⟨hstopped, hpwm, hresult, hflg, hpend, hlast, hmstop⟩
  cases stepped_of_step hstep with
  | waits | loses | envWrites => exact absurd hempty hbusy
  | reserved _ _ hacc | runs _ _ hacc => exact absurd hacc.1 hbusy
  | sequences _ _ hseq => exact hseq.completes hinv.startStep hempty
  | counts => exact absurd ((tick_seq _).symm.trans hempty) hbusy
  | serves hmove =>
    have hsame := (stepped_of_step hstep).seq_eq (by simp [hmove]) (by simp [hmove]) hreset
    exact absurd (hsame.symm.trans hempty) hbusy
  | resets hmove => exact absurd hmove hreset

/-- Settles O52: without a presented word the empty stack stays, and on it the invariant says the
safe state. -/
theorem noRestartWithoutCommand : Obligations.NoRestartWithoutCommand := by
  intro s t hinv hidle hstep
  refine ⟨fun hport => ?_,
    fun hempty => ((stepKeepsInvariant s t hinv hstep).safe_of_idle hempty).2⟩
  cases stepped_of_step hstep with
  | waits | loses | envWrites => exact hidle
  | reserved hmove | runs hmove => exact absurd hmove hport
  | sequences _ hen => exact absurd hidle hen.1
  | counts => exact (tick_seq _).trans hidle
  | serves hmove =>
    have hsame := (stepped_of_step hstep).seq_eq hport (by simp [hmove]) (by simp [hmove])
    exact hsame.trans hidle
  | resets => rfl

/-! ## The transitions of the stack (R160) -/

/-- The stack after presenting a word. -/
theorem Stepped.seq_of_present {s t : State} (h : Stepped s t)
    (hmove : nextMove s = some .present) :
    (t.seq = s.seq ∧ (s.acceptEnabled → ∀ i, s.presents i → blockingCommand i →
        t.fault = 1#8 ∨ t.result = 2#8 ∨ t.result = 3#8))
      ∨ (s.acceptEnabled ∧ ∃ ms, s.presents (.delay ms) ∧ s.delayPasses ms.toNat
        ∧ t.seq = [.dpoll 0#16])
      ∨ (s.acceptEnabled ∧ ∃ pct, s.presents (.setdc pct) ∧ pct ≤ 100#8
        ∧ t.seq = [.setdc pct .test])
      ∨ (s.acceptEnabled ∧ s.presents .rot ∧ s.flagAt s.mref 0#8
        ∧ t.seq = [.setdc 50#8 .test, .rotfin]) := by
  cases h with
  | waits _ hport =>
    refine .inl ⟨rfl, fun _ i ⟨_, w, hw, _⟩ => ?_⟩
    rw [hport hmove] at hw
    cases hw
  | loses _ _ hbusy => exact .inl ⟨rfl, fun hacc => absurd hacc hbusy⟩
  | reserved _ hcmds _ hdec =>
    refine .inl ⟨rfl, fun _ i ⟨_, w, hw, hok⟩ => ?_⟩
    rw [hcmds] at hw
    cases hw
    rw [hdec] at hok
    cases hok
  | runs _ hcmds hacc hdec hexec =>
    have hpresents := presents_iff hmove hcmds hdec
    rcases exec_seq_cases (s := s.startStep.issued _ _) hacc.1 hexec with ⟨hseq, hfails⟩
      | ⟨ms, e, hpass, hseq⟩ | ⟨pct, e, hpct, hseq⟩ | ⟨e, hdown, hseq⟩
    · refine .inl ⟨hseq.trans hacc.1.symm, fun _ j hj hblocking => hfails ?_⟩
      rwa [← (hpresents j).1 hj]
    · exact .inr (.inl ⟨hacc, ms, (hpresents _).2 e.symm, hpass, hseq⟩)
    · exact .inr (.inr (.inl ⟨hacc, pct, (hpresents _).2 e.symm, hpct, hseq⟩))
    · exact .inr (.inr (.inr ⟨hacc, (hpresents _).2 e.symm, hdown, hseq⟩))
  | sequences hother | counts hother | serves hother | envWrites hother | resets hother =>
    cases hmove.symm.trans hother

theorem mstop_eq_one {b : BitVec 1} (h : b ≠ 0#1) : b = 1#1 := by
  revert h; revert b; decide

/-- Settles O49: the depth from the invariant, the rest move by move; a step of the sequencer
transition by transition. -/
theorem sequencerTransitions : Obligations.SequencerTransitions := by
  intro s t hinv hstep hreset
  have hstepped := stepped_of_step hstep
  refine ⟨legalStack_length (stepKeepsInvariant s t hinv hstep).stack,
    fun hport hseq => hstepped.seq_eq hport hseq hreset, hstepped.seq_of_present, fun hmove => ?_⟩
  cases hstepped with
  | waits hdisabled => exact .inl ⟨rfl, fun hen => absurd hen (hdisabled hmove)⟩
  | loses hother | reserved hother | runs hother | counts hother | serves hother | envWrites hother
    | resets hother => cases hmove.symm.trans hother
  | sequences _ hen htrans =>
    have hresult := fun hempty => (htrans.completes hinv.startStep hempty).1
    cases htrans with
    | faults => exact .inl ⟨rfl, fun _ => rfl⟩
    | counts hseq hdown hlt => exact .inr (.inl ⟨_, _, hseq, hdown, hlt, rfl⟩)
    | @delayEnds c rest b hseq hb hdone =>
      have hrest : (s.startStep.clearTov.stopTimer.ret .ok).seq = rest :=
        (State.ret_seq _ _).trans (congrArg List.tail hseq)
      exact .inr (.inr (.inl ⟨c, rest, b, hseq, hb, hdone, hrest,
        fun e => hresult (hrest.trans e)⟩))
    | drives hseq hdown hrun =>
      exact .inr (.inr (.inr (.inl ⟨_, _, hseq, hdown, hrun, rfl⟩)))
    | @loopEnds pct rest b hseq hb hstop =>
      have hrest : (State.ret { s.startStep with mstop := 0#1 } .ok).seq = rest :=
        (State.ret_seq _ _).trans (congrArg List.tail hseq)
      exact .inr (.inr (.inr (.inr (.inl ⟨pct, rest, b, hseq, hb, hstop.imp_left mstop_eq_one,
        hrest,
        fun e => hresult (hrest.trans e)⟩))))
    | delayStarts hseq hcalls hplan hdown =>
      cases hcalls with
      | on => exact .inr (.inr (.inr (.inr (.inr (.inl ⟨_, _, hseq, ⟨⟨_, hplan⟩, hdown⟩, rfl⟩)))))
      | off =>
        exact .inr (.inr (.inr (.inr (.inr (.inr (.inr (.inr (.inl
          ⟨_, _, hseq, ⟨⟨_, hplan⟩, hdown⟩, rfl⟩))))))))
    | delayRefused hseq hcalls hrefused =>
      cases hcalls with
      | on => exact .inr (.inr (.inr (.inr (.inr (.inr (.inl ⟨_, _, hseq, hrefused, rfl⟩))))))
      | off =>
        exact .inr (.inr (.inr (.inr (.inr (.inr (.inr (.inr (.inr (.inl
          ⟨_, _, hseq, hrefused, rfl⟩)))))))))
    | lowers hseq => exact .inr (.inr (.inr (.inr (.inr (.inr (.inr (.inl ⟨_, _, hseq, rfl⟩)))))))
    | @rotateEnds rest hseq =>
      have hstack : legalStack s.startStep.seq := hinv.stack
      rw [hseq, legalStack_rotfin_iff] at hstack
      subst hstack
      have hempty : ((s.startStep.toggleDir .right).ret .ok).seq = [] :=
        (State.ret_seq _ _).trans (congrArg List.tail hseq)
      exact .inr (.inr (.inr (.inr (.inr (.inr (.inr (.inr (.inr (.inr
        ⟨hseq, hempty, hresult hempty⟩)))))))))

end Sys2Proof.Machine

/-! Runs (spec/42_motor_control.md R159, spec/70_reset_and_hazards.md R224): the eager schedule
where no move is listed, a cancelled loop, and the hang. -/

namespace Sys2Proof.Machine

/-! ## The eager schedule (95_test_vectors) -/

theorem nextMove_of_agenda_cons {s : State} {m : Move} {ms : List Move} (h : s.agenda = m :: ms) :
    nextMove s = some m := by
  simp only [nextMove, h]

theorem nextMove_of_agenda_nil {s : State} (h : s.agenda = []) : nextMove s = eagerMove s := by
  simp only [nextMove, h]

theorem eagerMove_isr {s : State} (hen : s.isrEnabled) : eagerMove s = some .isr := if_pos hen

theorem not_isrEnabled {s : State} (hpend : s.ovfPend = 0#1) : ¬ s.isrEnabled := fun hen => by
  rw [State.isrEnabled, hpend] at hen
  exact absurd hen.1 (by decide)

theorem eagerMove_seqStep {s : State} (hen : s.seqEnabled) : eagerMove s = some .seqStep := by
  rw [eagerMove, if_neg (not_isrEnabled hen.2.2.1), if_pos hen]

theorem eagerMove_tick {s : State} (hseq : ¬ s.seqEnabled) (hbusy : s.seq ≠ [])
    (hen : s.tickEnabled) :
    eagerMove s = some .tick := by
  rw [eagerMove, if_neg (not_isrEnabled hen.2.2), if_neg hseq, if_neg fun h => hbusy h.1.1,
    if_pos hen]

theorem eagerMove_ne_reset (s : State) : eagerMove s ≠ some .reset := by
  unfold eagerMove
  split_ifs <;> simp

/-- With no move listed an enabled sequencer comes next. -/
theorem step_eager_seqStep {s : State} (hagenda : s.agenda = []) (hen : s.seqEnabled) :
    step s = seqStep s.startStep := by
  rw [step_of_nextMove ((nextMove_of_agenda_nil hagenda).trans (eagerMove_seqStep hen))]
  exact takeMove_seqStep_of_enabled (s := s.startStep) hen

/-- A duty-cycle frame waits for nothing but the fault and the pending interrupt. -/
theorem seqEnabled_setdc {s : State} {pct : Byte} {ph : Phase} {rest : List Frame}
    (hseq : s.seq = .setdc pct ph :: rest) (hfault : s.fault = 0#8) (hpend : s.ovfPend = 0#1) :
    s.seqEnabled := by
  simp [State.seqEnabled, hseq, hfault, hpend, pollReady]

/-! ## A cancelled loop (R159) -/

/-- With the flag Up a frame's delay is refused, in range or not. -/
theorem callDelay_refused {m : Nat} {found s : State} {f : Frame} {rest : List Frame} {b : Byte}
    (hseq : s.seq = f :: rest) (hb : found.flagAt s.tref b) (hup : b ≠ 0#8) :
    callDelay m found s = .next s := by
  cases hplan : plan s.params.tickNs m with
  | none => rw [callDelay_outOfRange hplan, State.returnToCaller_busy hseq]
  | some p => rw [callDelay_up hplan hb hup, State.returnToCaller_busy hseq]

theorem seqStep_callsDelay_refused {s : State} {pct : Byte} {ph back : Phase} {n : Nat}
    {rest : List Frame} {b : Byte} (hcalls : CallsDelay pct ph back n)
    (hseq : s.seq = .setdc pct ph :: rest) (hb : s.flagAt s.tref b) (hup : b ≠ 0#8) :
    seqStep s = .next { s with seq := .setdc pct back :: rest } := by
  rw [seqStep_callsDelay hcalls hseq]
  exact callDelay_refused (s := { s with seq := .setdc pct back :: rest }) rfl hb hup

/-- The state after the step of `S_LOW`. -/
def State.loopLowered (s : State) (pct : Byte) (rest : List Frame) : State :=
  { s.startStep.writePinOut (s.pinOut &&& ~~~pwmMask) with seq := .setdc pct .off :: rest }

/-- The state after the step of `S_OFF` whose delay is refused. -/
def State.loopRefused (s : State) (pct : Byte) (rest : List Frame) : State :=
  { s.startStep with seq := .setdc pct .test :: rest }

/-- The state after the step of `S_TEST` that leaves the loop. -/
def State.loopLeft (s : State) : State := { s.startStep with mstop := 0#1 }.ret .ok

theorem step_loopLowered {s : State} {pct : Byte} {rest : List Frame} (hagenda : s.agenda = [])
    (hseq : s.seq = .setdc pct .low :: rest) (hfault : s.fault = 0#8) (hpend : s.ovfPend = 0#1) :
    step s = .next (s.loopLowered pct rest) :=
  (step_eager_seqStep hagenda (seqEnabled_setdc hseq hfault hpend)).trans (seqStep_setdcLow hseq)

theorem step_loopRefused {s : State} {pct b : Byte} {rest : List Frame} (hagenda : s.agenda = [])
    (hseq : s.seq = .setdc pct .off :: rest) (hfault : s.fault = 0#8) (hpend : s.ovfPend = 0#1)
    (hb : s.flagAt s.tref b) (hup : b ≠ 0#8) : step s = .next (s.loopRefused pct rest) :=
  (step_eager_seqStep hagenda (seqEnabled_setdc hseq hfault hpend)).trans
    (seqStep_callsDelay_refused (s := s.startStep) .off hseq hb hup)

theorem step_loopLeft {s : State} {pct b : Byte} {rest : List Frame} (hagenda : s.agenda = [])
    (hseq : s.seq = .setdc pct .test :: rest) (hfault : s.fault = 0#8) (hpend : s.ovfPend = 0#1)
    (hb : s.flagAt s.mref b) (hup : b ≠ 0#8) : step s = .next s.loopLeft := by
  rw [step_eager_seqStep hagenda (seqEnabled_setdc hseq hfault hpend),
    seqStep_setdcTest (s := s.startStep) hseq]
  exact (setdcTest_flagAt (s := s.startStep) hb pct rest).trans (if_neg fun h => hup h.2)

/-- Settles O53: `S_LOW`, the refused off-delay, and the test that returns. -/
theorem cancelledLoopReturns : Obligations.CancelledLoopReturns := by
  intro s pct rest b c hseq hfault hpend hagenda htref hbup hmref hcup
  have hlow := step_loopLowered hagenda hseq hfault hpend
  have hoff : step (s.loopLowered pct rest) = _ :=
    step_loopRefused (by simp [State.loopLowered, hagenda]) rfl
      (by simpa [State.loopLowered] using hfault) (by simpa [State.loopLowered] using hpend)
      (by simpa [State.loopLowered] using htref) hbup
  have htest : step ((s.loopLowered pct rest).loopRefused pct rest) = _ :=
    step_loopLeft (by simp [State.loopLowered, State.loopRefused, hagenda]) rfl
      (by simpa [State.loopLowered, State.loopRefused] using hfault)
      (by simpa [State.loopLowered, State.loopRefused] using hpend)
      (by simpa [State.loopLowered, State.loopRefused] using hmref) hcup
  refine ⟨_, (run_succ hlow 2).trans ((run_succ hoff 1).trans (run_succ htest 0)), ?_⟩
  simp only [State.loopLeft]
  refine ⟨by simp [State.loopRefused], by simp [State.loopRefused, State.loopLowered, not_pwmMask],
    by simp, by simp [State.loopRefused, State.loopLowered],
    by simp [State.loopRefused, State.loopLowered], by simp [State.loopRefused, State.loopLowered],
    by simp [State.loopRefused, State.loopLowered],
    by simp [State.loopRefused, State.loopLowered, hfault], fun hhost => ?_⟩
  subst hhost
  exact (State.ret_result_of_last rfl).1

/-! ## The hang (R224) -/

/-- With the flag Up the interrupt service stops the timer, whatever its count. -/
theorem isr_stopsTimer {s : State} {b : Byte} (hb : s.flagAt s.tref b) (hup : b ≠ 0#8) :
    ∃ t, isr s = .next t ∧ t.ovfPend = 0#1 ∧ t.tCtrl = setCs s.tCtrl 0#3 ∧ t.fault = s.fault
      ∧ t.agenda = s.agenda := by
  refine ⟨_, (isr_flagAt hb).trans (if_pos (.inr hup)), ?_⟩
  simp [State.countOverflow]

/-- A delay whose timer is stopped hangs at a poll step that is not its last (R224). -/
theorem seqStep_hangs {s : State} {c : Count} {rest : List Frame} (hseq : s.seq = .dpoll c :: rest)
    (hfault : s.fault = 0#8) (hpend : s.ovfPend = 0#1) (hctrl : s.tCtrl = 0x00#8)
    (hflg : s.tFlg = 0x01#8) (hdown : s.flagAt s.tref 0#8) (hlt : c + 1#16 < s.ovfNeeded) :
    ∃ t, takeMove .seqStep s = .next t ∧ t.hung ∧ t.seq = .dpoll (c + 1#16) :: rest := by
  have htov : s.tFlg.getLsbD 0 = true := by rw [hflg]; rfl
  have hcleared : s.tFlg &&& 0xFE#8 = 0x00#8 := clearTov_of_flg (.inr hflg)
  obtain ⟨-, -, hcounts, -⟩ := pollStepCountsOverflows s c rest hseq hfault hpend
  refine ⟨_, (hcounts htov hdown hlt).1, ⟨by simp, hfault, fun hen => ?_, fun hen => ?_,
    not_isrEnabled hpend⟩, rfl⟩
  · obtain ⟨_, _, hready⟩ := (seqEnabled_dpoll_iff rfl).1 hen
    simp [hcleared] at hready
  · exact not_timerRunning_of_zero hctrl hen.1

/-- Settles O54: the service stops the timer for a flag that the poll step no longer sees. -/
theorem shortFlagPulseHangsTheDelay : Obligations.ShortFlagPulseHangsTheDelay := by
  intro s k c rest hinv hseq hfault hpend hflg htref hup hlt hagenda
  obtain ⟨t, hisr, htpend, htctrl, htfault, htagenda⟩ :=
    isr_stopsTimer (s := s.startStep) (flagAt_of_read htref hup) (by decide)
  obtain ⟨-, -, htflg, htneeded, httref, -, -, -, -, -, htseq, htmem, -⟩ := isr_frame hisr
  rw [State.startStep_agenda, hagenda, List.tail_cons] at htagenda
  have hserve : step s = .next t := by
    rw [step_of_nextMove (nextMove_of_agenda_cons hagenda)]
    exact (takeMove_isr_of_enabled (s := s.startStep) ⟨hpend, hfault⟩).trans hisr
  have hdrop : step t = .next (t.startStep.envWrite k 0#1) :=
    step_of_nextMove (nextMove_of_agenda_cons htagenda)
  have hmem : ((t.startStep.envWrite k 0#1).startStep).mem = s.mem.write k.val 0#8 := by
    simp [htmem, levelByte]
  have htref' : ((t.startStep.envWrite k 0#1).startStep).tref = s.tref := by simp [httref]
  obtain ⟨u, hpoll, hhung, huseq⟩ := seqStep_hangs (s := (t.startStep.envWrite k 0#1).startStep)
    (c := c) (rest := rest) (by simp [htseq, hseq]) (by simp [htfault, hfault])
    (by simpa using htpend)
    (by simp [htctrl, setCs_zero_of_ctrl hinv.ctrl]) (by simp [htflg, hflg])
    (by
      rw [htref']
      exact flagAt_of_read htref (hmem ▸ Memory.read_write_same 0#8 hinv.memWf k.isLt))
    (by simpa [htneeded] using hlt)
  have hlast : step (t.startStep.envWrite k 0#1) = .next u := by
    rw [step_of_nextMove (nextMove_of_agenda_cons (ms := []) (m := .seqStep) (by simp [htagenda]))]
    exact hpoll
  refine ⟨u, (run_succ hserve 2).trans ((run_succ hdrop 1).trans (run_succ hlast 0)), hhung, huseq,
    ?_⟩
  exact decide_eq_true (.inl hhung.1)

/-- The hang is a matter of the block's own part. -/
theorem State.hung_blockPart (s : State) : s.blockPart.hung ↔ s.hung := Iff.rfl

theorem nextMove_ne_reset {s : State} (h : .reset ∉ s.agenda) : nextMove s ≠ some .reset := by
  cases hagenda : s.agenda with
  | nil => rw [nextMove_of_agenda_nil hagenda]; exact eagerMove_ne_reset s
  | cons m ms =>
    rw [nextMove_of_agenda_cons hagenda]
    rintro ⟨⟩
    simp [hagenda] at h

/-- A step that is not a reset leaves a hang as it is. -/
theorem hung_step {s t : State} (hhung : s.hung) (hreset : .reset ∉ s.agenda)
    (hstep : step s = .next t) : t.hung ∧ t.blockPart = s.blockPart ∧ .reset ∉ t.agenda := by
  obtain ⟨hbusy, hfault, hseq, htick, hisr⟩ := hhung
  obtain ⟨hpart, hagenda⟩ := (stepped_of_step hstep).blockPart_eq
    (fun hacc => hbusy hacc.1) hseq htick
    (fun _ => hisr) (nextMove_ne_reset hreset)
  refine ⟨?_, hpart, fun hmem => hreset (List.mem_of_mem_tail (hagenda ▸ hmem))⟩
  rw [← State.hung_blockPart, hpart]
  exact ⟨hbusy, hfault, hseq, htick, hisr⟩

theorem run_fault {s : State} {r : Fault} (h : step s = .fault r) (k : Nat) :
    Host.Core.run core (k + 1) s = .fault r := by
  have hcore : core.step s = .fault r := h
  simp only [Host.Core.run, hcore]

theorem run_refused {s : State} {r : Refusal} (h : step s = .refused r) (k : Nat) :
    Host.Core.run core (k + 1) s = .refused r := by
  have hcore : core.step s = .refused r := h
  simp only [Host.Core.run, hcore]

/-- Settles O55, by induction on the number of steps. -/
theorem onlyResetLeavesAHang : Obligations.OnlyResetLeavesAHang := by
  intro k
  induction k with
  | zero =>
    intro s t hhung _ hrun
    cases hrun
    exact ⟨hhung, rfl⟩
  | succ k ih =>
    intro s t hhung hreset hrun
    cases hstep : step s with
    | next u =>
      rw [run_succ hstep] at hrun
      obtain ⟨hu, hpart, hagenda⟩ := hung_step hhung hreset hstep
      obtain ⟨ht, hrest⟩ := ih u t hu hagenda hrun
      exact ⟨ht, hrest.trans hpart⟩
    | fault r => rw [run_fault hstep] at hrun; cases hrun
    | refused r => rw [run_refused hstep] at hrun; cases hrun

end Sys2Proof.Machine

/-! The length of a delay (spec/40_timer_delay.md R107, R118): under the eager schedule a delay with
the flag Down counts its timer, serves an interrupt that is armed, and polls, overflow by overflow.
-/

namespace Sys2Proof.Machine

/-! ## Runs with a stack that is not empty -/

/-- `k` steps from the first state to the second, `n` of them counts of the timer, each from a state
whose stack is not empty. -/
inductive BusyRun : Nat → Nat → State → State → Prop where
  | refl (s : State) : BusyRun 0 0 s s
  | count {k n : Nat} {s t u : State} (hbusy : s.seq ≠ []) (hmove : nextMove s = some .tick)
      (hen : s.tickEnabled) (hstep : step s = .next t) (hrest : BusyRun k n t u) :
      BusyRun (k + 1) (n + 1) s u
  | other {k n : Nat} {s t u : State} (hbusy : s.seq ≠ []) (hmove : nextMove s ≠ some .tick)
      (hstep : step s = .next t) (hrest : BusyRun k n t u) : BusyRun (k + 1) n s u

theorem BusyRun.trans {k n l m : Nat} {s t u : State} (h : BusyRun k n s t) (h' : BusyRun l m t u) :
    BusyRun (k + l) (n + m) s u := by
  induction h with
  | refl => simpa using h'
  | count hbusy hmove hen hstep _ ih =>
    rw [Nat.add_right_comm, Nat.add_right_comm _ 1]
    exact .count hbusy hmove hen hstep (ih h')
  | other hbusy hmove hstep _ ih =>
    rw [Nat.add_right_comm]
    exact .other hbusy hmove hstep (ih h')

theorem BusyRun.run_eq {k n : Nat} {s t : State} (h : BusyRun k n s t) :
    Host.Core.run core k s = .next t := by
  induction h with
  | refl => rfl
  | count _ _ _ hstep _ ih => rw [run_succ hstep, ih]
  | other _ _ hstep _ ih => rw [run_succ hstep, ih]

theorem tickCount_succ {s t : State} (h : step s = .next t) (k : Nat) :
    tickCount (k + 1) s
      = (if nextMove s = some .tick ∧ s.tickEnabled then 1 else 0) + tickCount k t := by
  simp only [tickCount, h]

theorem BusyRun.tickCount_eq {k n : Nat} {s t : State} (h : BusyRun k n s t) :
    tickCount k s = n := by
  induction h with
  | refl => rfl
  | count _ hmove hen hstep _ ih =>
    rw [tickCount_succ hstep, if_pos ⟨hmove, hen⟩, ih, Nat.add_comm]
  | other _ hmove hstep _ ih =>
    rw [tickCount_succ hstep, if_neg fun h => hmove h.1, ih, Nat.zero_add]

theorem BusyRun.busy {k n : Nat} {s t : State} (h : BusyRun k n s t) {j : Nat}
    {u : State} (hj : j < k)
    (hrun : Host.Core.run core j s = .next u) : u.seq ≠ [] := by
  induction h generalizing j with
  | refl => exact absurd hj (Nat.not_lt_zero j)
  | count hbusy _ _ hstep _ ih | other hbusy _ hstep _ ih =>
    cases j with
    | zero => cases hrun; exact hbusy
    | succ j => exact ih (Nat.lt_of_succ_lt_succ hj) (run_succ hstep j ▸ hrun)

/-! ## A delay between its overflows -/

/-- How often `TOV` has been cleared (R118). -/
def State.tovClears (s : State) : Nat := s.evt.count (.regWrite .tFlg 0x00#8)

/-- The host's delay, of which `c` overflows have been consumed, waits with the flag Down and no
move listed. -/
structure DelayWaits (c : Count) (s : State) : Prop where
  seq : s.seq = [.dpoll c]
  below : c < s.ovfNeeded
  fault : s.fault = 0#8
  agenda : s.agenda = []
  flag : s.flagAt s.tref 0#8

/-- The delay's timer runs towards its next overflow; an armed interrupt has counted as often as the
delay. -/
structure DelayCounts (c : Count) (s : State) : Prop extends DelayWaits c s where
  pend : s.ovfPend = 0#1
  ctrl : s.tCtrl = 0x05#8
  tov : s.tFlg.getLsbD 0 = false
  isr : toieOf s.tIen = 1#1 → s.isrCnt = c

/-- The timer has overflowed with the interrupt armed. -/
structure DelayPending (c : Count) (s : State) : Prop extends DelayWaits c s where
  pend : s.ovfPend = 1#1
  ctrl : s.tCtrl = 0x05#8
  tov : s.tFlg.getLsbD 0 = true
  cnt : s.tCnt = 0#8
  isr : s.isrCnt = c

/-- The delay has an overflow to consume, and the interrupt, if armed, has been served. -/
structure DelayFlagged (c : Count) (s : State) : Prop extends DelayWaits c s where
  pend : s.ovfPend = 0#1
  tov : s.tFlg.getLsbD 0 = true
  cnt : s.tCnt = 0#8
  ctrl : c + 1#16 < s.ovfNeeded → s.tCtrl = 0x05#8
  isr : c + 1#16 < s.ovfNeeded → toieOf s.tIen = 1#1 → s.isrCnt = c + 1#16

theorem DelayCounts.tickEnabled {c : Count} {s : State} (h : DelayCounts c s) : s.tickEnabled :=
  ⟨by rw [State.timerRunning, h.ctrl]; decide, h.fault, h.pend⟩

theorem DelayCounts.nextMove_eq {c : Count} {s : State} (h : DelayCounts c s) :
    nextMove s = some .tick := by
  have hnotReady : ¬ s.seqEnabled := fun hen => by
    obtain ⟨_, _, htov⟩ := (seqEnabled_dpoll_iff h.seq).1 hen
    rw [h.tov] at htov
    cases htov
  rw [nextMove_of_agenda_nil h.agenda,
    eagerMove_tick hnotReady (by simp [h.seq]) h.tickEnabled]

theorem DelayCounts.step_eq {c : Count} {s : State} (h : DelayCounts c s) :
    step s = .next (tick s.startStep) := by
  rw [step_of_nextMove h.nextMove_eq]
  exact takeMove_tick_of_enabled (s := s.startStep) h.tickEnabled

/-- The counts up to the last one before the overflow. -/
theorem DelayCounts.countDown {c : Count} (d : Nat) {s : State} (h : DelayCounts c s)
    (hcnt : s.tCnt.toNat + d = 255) :
    ∃ t, BusyRun d d s t ∧ DelayCounts c t ∧ t.tCnt = 255#8 ∧ t.evt = s.evt
      ∧ t.ovfNeeded = s.ovfNeeded := by
  induction d generalizing s with
  | zero => exact ⟨s, .refl s, h, BitVec.eq_of_toNat_eq hcnt, rfl, rfl⟩
  | succ d ih =>
    have hnot : s.startStep.tCnt ≠ 255#8 := fun e => by
      rw [State.startStep_tCnt] at e
      rw [e] at hcnt
      simp at hcnt
    obtain ⟨_, e⟩ | ⟨hwrap, _⟩ | ⟨hwrap, _⟩ := tick_cases s.startStep
    case inr.inl => exact absurd hwrap hnot
    case inr.inr => exact absurd hwrap hnot
    have hstep := h.step_eq
    rw [e] at hstep
    have hcounts : DelayCounts c { s.startStep with tCnt := s.tCnt + 1#8 } :=
      { h with agenda := by simp [h.agenda] }
    obtain ⟨t, hrun, ht, hfull, hevt, hneeded⟩ := ih hcounts (by
      change (s.tCnt + 1#8).toNat + d = 255
      bv_omega)
    exact ⟨t, .count (by simp [h.seq]) h.nextMove_eq h.tickEnabled hstep hrun, ht, hfull, hevt,
      hneeded⟩

/-! ## An overflow -/

theorem invokeCallback_tovClears (s : State) : (invokeCallback s).tovClears = s.tovClears := by
  rcases invokeCallback_cases s with ⟨_, e⟩ | ⟨_, e⟩ | ⟨_, _, e⟩
  · rw [e]
  · simp [e, State.tovClears]
  · simp [e, State.tovClears]

/-- The interrupt service with the flag Down: it leaves the poll step its overflow, and stops the
timer only at its own count. -/
theorem isr_down {s : State} (hdown : s.flagAt s.tref 0#8) :
    ∃ t, isr s = .next t ∧ t.ovfPend = 0#1 ∧ t.fault = s.fault ∧ t.agenda = s.agenda
      ∧ t.tovClears = s.tovClears
      ∧ (s.isrCnt + 1#16 < s.ovfNeeded → t.tCtrl = s.tCtrl ∧ t.isrCnt = s.isrCnt + 1#16) := by
  have hcounted : s.countOverflow.tovClears = s.tovClears := by
    simp [State.countOverflow, State.tovClears]
  by_cases hreached : s.ovfNeeded ≤ s.isrCnt + 1#16
  · refine ⟨_, (isr_flagAt hdown).trans (if_pos (.inl hreached)), by simp [State.countOverflow],
      by simp [State.countOverflow], by simp [State.countOverflow], ?_,
      fun hlt => absurd hreached (BitVec.not_le.2 hlt)⟩
    rw [State.serveOverflow, invokeCallback_tovClears, ← hcounted]
    simp [State.tovClears]
  · exact ⟨_, (isr_flagAt hdown).trans (if_neg (by simpa using hreached)), rfl, rfl, rfl, hcounted,
      fun _ => ⟨rfl, rfl⟩⟩

theorem step_eager_isr {s : State} (hagenda : s.agenda = []) (hen : s.isrEnabled) :
    nextMove s = some .isr ∧ step s = isr s.startStep := by
  have hmove : nextMove s = some .isr := (nextMove_of_agenda_nil hagenda).trans (eagerMove_isr hen)
  rw [step_of_nextMove hmove]
  exact ⟨hmove, takeMove_isr_of_enabled (s := s.startStep) hen⟩

/-- The service of an overflow leaves it to the poll step. -/
theorem DelayPending.served {c : Count} {s : State} (h : DelayPending c s) :
    ∃ t, BusyRun 1 0 s t ∧ DelayFlagged c t ∧ t.tovClears = s.tovClears
      ∧ t.ovfNeeded = s.ovfNeeded := by
  obtain ⟨hmove, hstep⟩ := step_eager_isr h.agenda ⟨h.pend, h.fault⟩
  obtain ⟨t, hisr, hpend, hfault, hagenda, hclears, hgoesOn⟩ := isr_down (s := s.startStep) h.flag
  obtain ⟨hcnt, -, hflg, hneeded, htref, -, -, -, -, -, hseq, hmem, -⟩ := isr_frame hisr
  rw [State.startStep_isrCnt, State.startStep_ovfNeeded, h.isr] at hgoesOn
  rw [State.startStep_ovfNeeded] at hneeded
  refine ⟨t, .other (by simp [h.seq]) (by simp [hmove]) (hstep.trans hisr) (.refl t), ?_, hclears,
    hneeded⟩
  exact {
    seq := hseq.trans h.seq
    below := hneeded ▸ h.below
    fault := hfault.trans h.fault
    pend := hpend
    agenda := hagenda.trans (congrArg List.tail h.agenda)
    flag := by rw [State.flagAt, htref, hmem]; exact h.flag
    tov := (congrArg (BitVec.getLsbD · 0) hflg).trans h.tov
    cnt := hcnt.trans h.cnt
    ctrl := fun hlt => (hgoesOn (hneeded ▸ hlt)).1.trans h.ctrl
    isr := fun hlt _ => (hgoesOn (hneeded ▸ hlt)).2 }

/-- The count that overflows, and the interrupt service if the interrupt is armed. -/
theorem DelayCounts.overflows {c : Count} {s : State} (h : DelayCounts c s)
    (hfull : s.tCnt = 255#8) :
    ∃ k t, BusyRun k 1 s t ∧ DelayFlagged c t ∧ t.tovClears = s.tovClears
      ∧ t.ovfNeeded = s.ovfNeeded := by
  have htov : (setTov s.tFlg 1#1).getLsbD 0 = true := by simp [setTov_one]
  have hnil : s.agenda.tail = [] := by rw [h.agenda]; rfl
  have hstep := h.step_eq
  have hbusy : s.seq ≠ [] := by simp [h.seq]
  rcases tick_cases s.startStep with ⟨hnot, _⟩ | ⟨_, harmed, e⟩ | ⟨_, hdisarmed, e⟩
  · exact absurd hfull hnot
  · rw [e] at hstep
    have hpending : DelayPending c { s.startStep with
        tCnt := 0#8, tFlg := setTov s.startStep.tFlg 1#1, ovfPend := 1#1 } :=
      { h with agenda := hnil, pend := rfl, tov := htov, cnt := rfl, isr := h.isr harmed }
    obtain ⟨t, hserve, ht, hclears, hneeded⟩ := hpending.served
    exact ⟨2, t, .count hbusy h.nextMove_eq h.tickEnabled hstep hserve, ht, hclears, hneeded⟩
  · rw [e] at hstep
    exact ⟨1, _, .count hbusy h.nextMove_eq h.tickEnabled hstep (.refl _),
      { h with
        agenda := hnil, tov := htov, cnt := rfl, ctrl := fun _ => h.ctrl
        isr := fun _ harmed => absurd harmed hdisarmed }, rfl, rfl⟩

/-- From a running timer to an overflow that the poll step can consume. -/
theorem DelayCounts.period {c : Count} {s : State} (h : DelayCounts c s) :
    ∃ k t, BusyRun k (256 - s.tCnt.toNat) s t ∧ DelayFlagged c t ∧ t.tovClears = s.tovClears
      ∧ t.ovfNeeded = s.ovfNeeded := by
  have hlt := s.tCnt.isLt
  obtain ⟨t, hdown, ht, hfull, hevt, hneeded⟩ := h.countDown (255 - s.tCnt.toNat) (by omega)
  obtain ⟨k, u, hover, hu, hclears, hneeded'⟩ := ht.overflows hfull
  have hticks : 255 - s.tCnt.toNat + 1 = 256 - s.tCnt.toNat := by omega
  refine ⟨_, u, hticks ▸ hdown.trans hover, hu, hclears.trans ?_, hneeded'.trans hneeded⟩
  rw [State.tovClears, hevt, State.tovClears]

/-! ## The poll steps -/

theorem DelayFlagged.step_eq {c : Count} {s : State} (h : DelayFlagged c s) :
    nextMove s = some .seqStep ∧ step s = pollStep c [] s.startStep := by
  have hen : s.seqEnabled := (seqEnabled_dpoll_iff h.seq).2 ⟨h.fault, h.pend, h.tov⟩
  refine ⟨(nextMove_of_agenda_nil h.agenda).trans (eagerMove_seqStep hen), ?_⟩
  rw [step_eager_seqStep h.agenda hen]
  exact seqStep_dpoll (s := s.startStep) h.seq

/-- The poll step at an overflow that is not the last. -/
theorem DelayFlagged.polls {c : Count} {s : State} (h : DelayFlagged c s)
    (hlt : c + 1#16 < s.ovfNeeded) :
    ∃ t, BusyRun 1 0 s t ∧ DelayCounts (c + 1#16) t ∧ t.tCnt = 0#8
      ∧ t.tovClears = s.tovClears + 1 ∧ t.ovfNeeded = s.ovfNeeded := by
  obtain ⟨hmove, hstep⟩ := h.step_eq
  rw [pollStep_flagAt (s := s.startStep) h.flag, if_neg (by simpa using hlt)] at hstep
  refine ⟨_, .other (by simp [h.seq]) (by simp [hmove]) hstep (.refl _), ?_, h.cnt, ?_, rfl⟩
  · exact { h with
      seq := rfl
      below := hlt
      agenda := by simp [State.clearTov, h.agenda]
      ctrl := h.ctrl hlt
      tov := by simp [State.clearTov]
      isr := h.isr hlt }
  · simp [State.clearTov, State.tovClears]

/-- The poll step at the last overflow. -/
theorem DelayFlagged.returns {c : Count} {s : State} (h : DelayFlagged c s)
    (hlast : s.ovfNeeded ≤ c + 1#16) :
    ∃ t, BusyRun 1 0 s t ∧ t.seq = [] ∧ t.result = 0#8 ∧ ¬ t.timerRunning
      ∧ t.tovClears = s.tovClears + 1 := by
  obtain ⟨hmove, hstep⟩ := h.step_eq
  have hseq : s.startStep.clearTov.stopTimer.seq = [.dpoll c] := h.seq
  have hstopped (v : Byte) : csOf (setCs v 0#3) = 0#3 := by revert v; decide
  rw [pollStep_flagAt (s := s.startStep) h.flag, if_pos (.inl hlast), State.ret_last hseq] at hstep
  refine ⟨_, .other (by simp [h.seq]) (by simp [hmove]) hstep (.refl _), rfl, rfl,
    fun hrun => hrun (hstopped _), ?_⟩
  simp [State.clearTov, State.tovClears, State.complete]

/-! ## The whole delay -/

/-- From a running timer to the return: `r` full periods after the first overflow. -/
theorem DelayCounts.ends (r : Nat) {c : Count} {s : State} (h : DelayCounts c s)
    (hr : s.ovfNeeded.toNat = c.toNat + r + 1) :
    ∃ k t, BusyRun k (256 * r + (256 - s.tCnt.toNat)) s t ∧ t.seq = [] ∧ t.result = 0#8
      ∧ ¬ t.timerRunning ∧ t.tovClears = s.tovClears + (r + 1) := by
  obtain ⟨k, u, hperiod, hu, hclears, hneeded⟩ := h.period
  induction r generalizing c s k u with
  | zero =>
    obtain ⟨t, hpoll, hseq, hresult, hstopped, hclear⟩ := hu.returns (by rw [hneeded]; bv_omega)
    refine ⟨k + 1, t, ?_, hseq, hresult, hstopped, by rw [hclear, hclears]⟩
    simpa using hperiod.trans hpoll
  | succ r ih =>
    obtain ⟨v, hpoll, hv, hcnt, hclear, hneeded'⟩ := hu.polls (by rw [hneeded]; bv_omega)
    obtain ⟨k', w, hperiod', hw, hclears', hneeded''⟩ := hv.period
    obtain ⟨l, t, hrest, hseq, hresult, hstopped, hclearsRest⟩ :=
      ih hv (by rw [hneeded', hneeded]; bv_omega) k' w hperiod' hw hclears' hneeded''
    have hticks : 256 - s.tCnt.toNat + 0 + (256 * r + (256 - v.tCnt.toNat))
        = 256 * (r + 1) + (256 - s.tCnt.toNat) := by
      rw [hcnt, BitVec.toNat_zero]
      omega
    refine ⟨_, t, hticks ▸ (hperiod.trans hpoll).trans hrest, hseq, hresult, hstopped, ?_⟩
    rw [hclearsRest, hclear, hclears]
    omega

/-- The accept step of a delay that passes its checks starts its timer. -/
theorem delay_accepted {s : State} {w : CmdWord} {ws : List CmdWord} {ms : Millis} {p : Plan}
    (hseq : s.seq = []) (hfault : s.fault = 0#8) (hpend : s.ovfPend = 0#1) (hagenda : s.agenda = [])
    (hcmds : s.cmds = w :: ws) (hdec : decode w = .ok (.delay ms))
    (hplan : plan s.params.tickNs ms.toNat = some p) (htick : 0 < s.params.tickNs)
    (hdown : s.flagAt s.tref 0#8) (htov : s.tFlg.getLsbD 0 = false) (hisr : s.isrCnt = 0#16) :
    ∃ t, nextMove s = some .present ∧ step s = .next t ∧ DelayCounts 0#16 t
      ∧ t.ovfNeeded = BitVec.ofNat 16 p.needed ∧ t.tCnt = BitVec.ofNat 8 p.preload
      ∧ t.tovClears = s.tovClears := by
  obtain ⟨hneeded, hmax, _⟩ := planBounds _ _ _ htick hplan
  have hmove : nextMove s = some .present := by
    rw [nextMove_of_agenda_nil hagenda, eagerMove, if_neg (not_isrEnabled hpend),
      if_neg fun hen => hen.1 hseq, if_pos ⟨⟨hseq, hfault, hpend⟩, by simp [hcmds]⟩]
  have hstep := stepRunsAcceptedCommand s w ws _ hseq hfault hpend hmove hcmds hdec
  have hstarts := delayStartsTimer
    { s with cmds := ws, agenda := s.agenda.tail, cbOut := none, evt := s.evt ++ [.issue w] }
    ms p hplan hdown
  refine ⟨_, hmove, hstep.trans hstarts, ?_, rfl, rfl, by simp [State.tovClears]⟩
  exact {
    seq := congrArg (List.cons _) hseq
    below := by
      change 0#16 < BitVec.ofNat 16 p.needed
      bv_omega
    fault := hfault
    pend := hpend
    agenda := congrArg List.tail hagenda
    flag := hdown
    ctrl := rfl
    tov := htov
    isr := fun _ => hisr }

/-- Settles O39: the accept step, then `n` overflows, the first after `256 - p` counts. -/
theorem delayLastsTotalTicks : Obligations.DelayLastsTotalTicks := by
  intro s w ws ms p hseq hfault hpend hagenda hcmds hdec hplan htick hdown htov hisr
  obtain ⟨hneeded, hmax, hpreload⟩ := planBounds _ _ _ htick hplan
  obtain ⟨s1, hmove, hstep, hcounts, hn, hp, hclears⟩ :=
    delay_accepted hseq hfault hpend hagenda hcmds hdec hplan htick hdown htov hisr
  obtain ⟨k, t, hrun, hempty, hresult, hstopped, hclearsRest⟩ :=
    hcounts.ends (p.needed - 1) (by rw [hn]; bv_omega)
  refine ⟨k + 1, t, (run_succ hstep k).trans hrun.run_eq, hempty, hresult, hstopped, ?_, ?_,
    fun j u hpos hj hu => ?_⟩
  · have hpreload' : s1.tCnt.toNat = p.preload := by rw [hp]; bv_omega
    rw [tickCount_succ hstep, if_neg (by simp [hmove]), hrun.tickCount_eq, hpreload', Nat.zero_add]
    rfl
  · change t.tovClears = s.tovClears + p.needed
    omega
  · obtain ⟨j, rfl⟩ := Nat.exists_eq_succ_of_ne_zero hpos.ne'
    exact hrun.busy (Nat.lt_of_succ_lt_succ hj) (run_succ hstep j ▸ hu)

end Sys2Proof.Machine
